-- ==== Sys2Proof/Word.lean ====
section
/-! DEFINITION. The word types of PMC and its exact number type. -/

namespace Sys2Proof

/-- A byte is 8 bits (00_scope.md R11): a chip register, a chip register address. -/
abbrev Byte := BitVec 8

/-- The 48-bit command word (30_encoding.md R81). -/
abbrev CmdWord := BitVec 48

/-- The transport's own error value `e`: opaque to PMC, only copied (R43, R101, D22).
DESIGN CHOICE, log 3: error values are numbered; the model never looks at the number. -/
abbrev TransportError := Nat

/-- An exact rational `num / den` with `den > 0`, the "real number" of R90 and the fraction `n / d` of
R146. -/
structure Frac where
  num : Int
  den : Nat
  deriving DecidableEq, Repr

end Sys2Proof
end

