-- ==== Sys2Proof/Config.lean ====
section
/-! DEFINITION. The configuration structure CFG (10_state.md R20 to R31), the constants the source fixes
(R32), the instance `State.reset` is built with, and the free values. -/

namespace Sys2Proof

/-- CFG: constants fixed when an instance is constructed and never written afterwards (R20). -/
structure Cfg where
  /-- `CFG.DEV_ADDR7` (R21). -/
  devAddr7 : BitVec 7
  /-- `CFG.MODE1_ADDR` (R22). -/
  mode1Addr : Byte
  /-- `CFG.PRESCALE_ADDR` (R23). -/
  prescaleAddr : Byte
  /-- `CFG.LED0_ON_L_ADDR` (R24). -/
  led0OnLAddr : Byte
  /-- `CFG.SLEEP_MASK` (R25). -/
  sleepMask : Byte
  /-- `CFG.RESTART_MASK` (R25). -/
  restartMask : Byte
  /-- `CFG.AI_MASK` (R25). -/
  aiMask : Byte
  /-- `CFG.OSC_HZ` (R26). -/
  oscHz : BitVec 32
  /-- `CFG.PRESCALE_MIN` (R27). -/
  prescaleMin : Byte
  /-- `CFG.PRESCALE_MAX` (R27). -/
  prescaleMax : Byte
  /-- `CFG.PULSE_MIN` (R28). -/
  pulseMin : BitVec 12
  /-- `CFG.PULSE_NEUTRAL` (R28). -/
  pulseNeutral : BitVec 12
  /-- `CFG.PULSE_MAX` (R28). -/
  pulseMax : BitVec 12
  /-- `CFG.BURST` (R29). -/
  burst : Bool
  /-- `CFG.RESET_DELAY_MS` (R30). -/
  resetDelayMs : BitVec 16
  /-- `CFG.OSC_SETTLE_MS` (R30). -/
  oscSettleMs : BitVec 16
  /-- `CFG.PROBE_TIMEOUT_MS` (R31). -/
  probeTimeoutMs : BitVec 32
  deriving DecidableEq, Repr

/-- `MANAGED = SLEEP_MASK | RESTART_MASK | AI_MASK` (R25). -/
def Cfg.managed (c : Cfg) : Byte := c.sleepMask ||| c.restartMask ||| c.aiMask

/-- `UNRELATED = ~MANAGED` (R25). -/
def Cfg.unrelated (c : Cfg) : Byte := ~~~ c.managed

/-- The instance of CFG that `State.reset` holds: the defaults of R21 to R31. PRESUMED, log 7 (the spec
marks R21 to R27 as general knowledge); DESIGN CHOICE, log 8 (the pulse constants are illustrative and
the probe timeout has no default). Statements quantify over every CFG, not over this one. -/
def Cfg.default : Cfg where
  devAddr7 := 0x40
  mode1Addr := 0x00
  prescaleAddr := 0xFE
  led0OnLAddr := 0x06
  sleepMask := 0x10
  restartMask := 0x80
  aiMask := 0x20
  oscHz := 25000000
  prescaleMin := 3
  prescaleMax := 255
  pulseMin := 204
  pulseNeutral := 307
  pulseMax := 410
  burst := false
  resetDelayMs := 10
  oscSettleMs := 5
  probeTimeoutMs := 0

/-- `FREQ_MIN = 1` Hz (R32). -/
def freqMin : Nat := 1
/-- `FREQ_MAX = 3500` Hz (R32). -/
def freqMax : Nat := 3500
/-- `TICKS = 4096` (R32). -/
def ticks : Nat := 4096
/-- `TICK_MAX = 4095` (R32). -/
def tickMax : Nat := 4095
/-- `CH_MAX = 15` (R32). -/
def chMax : Nat := 15
/-- `STRIDE = 4` (R32). -/
def stride : Nat := 4
/-- `THR_MIN = -100` (R32). -/
def thrMin : Int := -100
/-- `THR_MAX = 100` (R32). -/
def thrMax : Int := 100
/-- `THR_DIV = 200` (R32). -/
def thrDiv : Int := 200
/-- `THR_ON = 0` (R32). -/
def thrOn : BitVec 12 := 0

/-! The free values: uninterpreted constants applied to the counter `State.draws` (log 4, log 6).
Nothing in Lean can evaluate them, so no claim can rest on what they are. -/

/-- `RES.detail` where R43 leaves it unspecified. -/
opaque Config.freeDetail : Nat → TransportError
/-- The code of `RES.status` after a block reset (R49). -/
opaque Config.freeStatusCode : Nat → BitVec 2
/-- `L.OLDMODE` after a block reset (R49). -/
opaque Config.freeOldMode : Nat → Byte
/-- `L.PRE` after a block reset (R49). -/
opaque Config.freePre : Nat → Byte
/-- `L.CH` after a block reset (R49). -/
opaque Config.freeCh : Nat → BitVec 4
/-- `L.ON` after a block reset (R49). -/
opaque Config.freeOn : Nat → BitVec 12
/-- `L.OFF` after a block reset (R49). -/
opaque Config.freeOff : Nat → BitVec 12

end Sys2Proof
end

