-- ==== Sys2Proof/Syntax.lean ====
section
/-! DEFINITION. The command set: one constructor for each row of spec/opcode_table.json (30_encoding.md
R92, R93). Each carries exactly the fields its command reads (R92, "fields read"); the fields it ignores
(R96) are no part of the command. -/

namespace Sys2Proof

/-- The five commands and the eleven illegal opcodes. -/
inductive Instr where
  /-- RESET, `op = 0x1` (R110). -/
  | reset
  /-- INIT, `op = 0x2` (R114). -/
  | init
  /-- SETFREQ, `op = 0x3`: the binary32 pattern `{a, b}` (R86, R150). -/
  | setfreq (fbits : BitVec 32)
  /-- SETPWM, `op = 0x4`: channel, ON count, OFF count (R83, R84, R176). -/
  | setpwm (ch : BitVec 8) (on off : BitVec 16)
  /-- SETTHR, `op = 0x5`: channel, throttle in two's complement (R83, R85, R195). -/
  | setthr (ch : BitVec 8) (pct : BitVec 16)
  /-- `op = 0x0`, illegal (R93). -/
  | illegal0
  /-- `op = 0x6`, illegal (R93). -/
  | illegal6
  /-- `op = 0x7`, illegal (R93). -/
  | illegal7
  /-- `op = 0x8`, illegal (R93). -/
  | illegal8
  /-- `op = 0x9`, illegal (R93). -/
  | illegal9
  /-- `op = 0xA`, illegal (R93). -/
  | illegalA
  /-- `op = 0xB`, illegal (R93). -/
  | illegalB
  /-- `op = 0xC`, illegal (R93). -/
  | illegalC
  /-- `op = 0xD`, illegal (R93). -/
  | illegalD
  /-- `op = 0xE`, illegal (R93). -/
  | illegalE
  /-- `op = 0xF`, illegal (R93). -/
  | illegalF
  deriving DecidableEq, Repr

end Sys2Proof
end

