-- ==== Sys2Proof/WellFormed.lean ====
section
/-! DEFINITION. Well-formedness. Every field of a command is a bit vector of its encoded width (R83 to
R86), so every term of `Instr` is encodable and there is nothing to check of one; which operands a
command ADMITS is a test the machine makes (R92, Machine/Operands.lean). What the spec does require to be
well formed is CFG (10_state.md R33). -/

namespace Sys2Proof

/-- Exactly one bit of the byte is set (R25). -/
def oneHot (m : Byte) : Bool := m != 0 && (m &&& (m - 1)) == 0

/-- The last register address of the channel window, `LED0_ON_L_ADDR + 63` (R24). -/
def Cfg.lastChannelAddr (c : Cfg) : Nat := c.led0OnLAddr.toNat + 63

/-- WF1: each mask one-hot, the three pairwise different (R25). -/
def Cfg.wf1 (c : Cfg) : Bool :=
  oneHot c.sleepMask && oneHot c.restartMask && oneHot c.aiMask &&
    c.sleepMask != c.restartMask && c.sleepMask != c.aiMask && c.restartMask != c.aiMask

/-- WF2: the channel window fits 8-bit register addresses (R24). -/
def Cfg.wf2 (c : Cfg) : Bool := decide (c.lastChannelAddr ≤ 255)

/-- WF3: `OSC_HZ` is nonzero (R26). -/
def Cfg.wf3 (c : Cfg) : Bool := c.oscHz != 0

/-- WF4: `PRESCALE_MIN <= PRESCALE_MAX` (R27). -/
def Cfg.wf4 (c : Cfg) : Bool := decide (c.prescaleMin.toNat ≤ c.prescaleMax.toNat)

/-- WF5: `PULSE_MIN <= PULSE_NEUTRAL <= PULSE_MAX <= 4095`; the last holds by the width (R28). -/
def Cfg.wf5 (c : Cfg) : Bool :=
  decide (c.pulseMin.toNat ≤ c.pulseNeutral.toNat) && decide (c.pulseNeutral.toNat ≤ c.pulseMax.toNat)

/-- WF7: `RESET_DELAY_MS >= 10` and `OSC_SETTLE_MS >= 5` (R30). -/
def Cfg.wf7 (c : Cfg) : Bool := decide (10 ≤ c.resetDelayMs.toNat) && decide (5 ≤ c.oscSettleMs.toNat)

/-- Does an address lie in the channel window `[LED0_ON_L_ADDR, LED0_ON_L_ADDR + 63]` (R33)? -/
def Cfg.inChannelWindow (c : Cfg) (a : Byte) : Bool :=
  decide (c.led0OnLAddr.toNat ≤ a.toNat) && decide (a.toNat ≤ c.lastChannelAddr)

/-- WF8: `MODE1_ADDR != PRESCALE_ADDR`, neither in the channel window (R33). -/
def Cfg.wf8 (c : Cfg) : Bool :=
  c.mode1Addr != c.prescaleAddr && !c.inChannelWindow c.mode1Addr && !c.inChannelWindow c.prescaleAddr

/-- CFG is well formed: WF1 to WF5, WF7 and WF8 (R33). -/
def Cfg.wf (c : Cfg) : Bool := c.wf1 && c.wf2 && c.wf3 && c.wf4 && c.wf5 && c.wf7 && c.wf8

/-- WF6: `PULSE_MAX - PULSE_MIN` even and `2 * PULSE_NEUTRAL = PULSE_MIN + PULSE_MAX`. Not required for
PMC to operate; the premise of the throttle end points (R28, R199). -/
def Cfg.wf6 (c : Cfg) : Bool :=
  decide ((c.pulseMax.toNat - c.pulseMin.toNat) % 2 = 0) &&
    decide (2 * c.pulseNeutral.toNat = c.pulseMin.toNat + c.pulseMax.toNat)

end Sys2Proof
end

