-- ==== Sys2Proof/Decode.lean ====
section
/-! DEFINITION. The command word: its fields, the decoder, the encoder (30_encoding.md R80 to R86, R92,
R93, R96). -/

namespace Sys2Proof

/-- `op = w[47:44]` (R81). -/
def opField (w : CmdWord) : BitVec 4 := w.extractLsb' 44 4
/-- `rsv = w[43:40]`, ignored by every command (R81, R96). -/
def rsvField (w : CmdWord) : BitVec 4 := w.extractLsb' 40 4
/-- `ch = w[39:32]` (R81). -/
def chField (w : CmdWord) : BitVec 8 := w.extractLsb' 32 8
/-- `a = w[31:16]` (R81). -/
def aField (w : CmdWord) : BitVec 16 := w.extractLsb' 16 16
/-- `b = w[15:0]` (R81). -/
def bField (w : CmdWord) : BitVec 16 := w.extractLsb' 0 16

/-- The decoder. Decode is by `op` alone (R92); every 48-bit word is one of the sixteen rows (R95). -/
def decode (w : CmdWord) : Instr :=
  match (opField w).toNat with
  | 0 => .illegal0
  | 1 => .reset
  | 2 => .init
  | 3 => .setfreq (aField w ++ bField w)
  | 4 => .setpwm (chField w) (aField w) (bField w)
  | 5 => .setthr (chField w) (bField w)
  | 6 => .illegal6
  | 7 => .illegal7
  | 8 => .illegal8
  | 9 => .illegal9
  | 10 => .illegalA
  | 11 => .illegalB
  | 12 => .illegalC
  | 13 => .illegalD
  | 14 => .illegalE
  -- a 4-bit field: what is left is 15
  | _ => .illegalF

/-- Why a string of bits is no command word. -/
inductive DecodeError where
  /-- More than 48 bits: every command is exactly 48 bits long (R80). -/
  | longerThanCommand
  /-- The number has a bit set above the given length. -/
  | bitsAboveLength
  deriving DecidableEq, Repr

/-- The word whose low `nbits` bits are `w` and whose other bits are 0, or the reason it is none. -/
def decodeBits (nbits w : Nat) : Except DecodeError Instr :=
  if 48 < nbits then .error .longerThanCommand
  else if 2 ^ nbits ≤ w then .error .bitsAboveLength
  else .ok (decode (BitVec.ofNat 48 w))

/-- The instruction the decoder reads from a row's bits as spec/opcode_table.json numbers them: bit 0 is
the least significant bit of the one 48-bit word (log 21). -/
def decodeTableWord (nbits w : Nat) : Option Instr := (decodeBits nbits w).toOption

/-- The word `op rsv ch a b` with `rsv = 0` (R81, R96: a host should write zeros there). -/
def cmdWord (op : BitVec 4) (ch : BitVec 8) (a b : BitVec 16) : CmdWord := op ++ 0#4 ++ ch ++ a ++ b

/-- The opcode of a command (R92, R93). -/
def Instr.opcode : Instr → BitVec 4
  | .illegal0 => 0x0
  | .reset => 0x1
  | .init => 0x2
  | .setfreq _ => 0x3
  | .setpwm _ _ _ => 0x4
  | .setthr _ _ => 0x5
  | .illegal6 => 0x6
  | .illegal7 => 0x7
  | .illegal8 => 0x8
  | .illegal9 => 0x9
  | .illegalA => 0xA
  | .illegalB => 0xB
  | .illegalC => 0xC
  | .illegalD => 0xD
  | .illegalE => 0xE
  | .illegalF => 0xF

/-- The encoder, zeros in the fields a command ignores (R81, R92, R96, R103). -/
def encode : Instr → CmdWord
  | .reset => cmdWord 0x1 0 0 0
  | .init => cmdWord 0x2 0 0 0
  | .setfreq f => cmdWord 0x3 0 (f.extractLsb' 16 16) (f.extractLsb' 0 16)
  | .setpwm ch on off => cmdWord 0x4 ch on off
  | .setthr ch pct => cmdWord 0x5 ch 0 pct
  | .illegal0 => cmdWord 0x0 0 0 0
  | .illegal6 => cmdWord 0x6 0 0 0
  | .illegal7 => cmdWord 0x7 0 0 0
  | .illegal8 => cmdWord 0x8 0 0 0
  | .illegal9 => cmdWord 0x9 0 0 0
  | .illegalA => cmdWord 0xA 0 0 0
  | .illegalB => cmdWord 0xB 0 0 0
  | .illegalC => cmdWord 0xC 0 0 0
  | .illegalD => cmdWord 0xD 0 0 0
  | .illegalE => cmdWord 0xE 0 0 0
  | .illegalF => cmdWord 0xF 0 0 0

end Sys2Proof
end

