-- ==== Sys2Proof/Machine/State.lean ====
section
/-! DEFINITION. The state of PMC (10_state.md), what passes at its ports (30_encoding.md R100 to R102), the
reasons a step can stop, and the state after reset. -/

namespace Sys2Proof.Machine

/-- The FSM state register `st`: which transaction of the running command is outstanding, or IDLE (R40). -/
inductive FsmState where
  | idle
  | iProbe
  | rWr
  | rDly
  | fRd
  | fSleep
  | fPre
  | fWake
  | fDly
  | fRestart
  | pB0
  | pB1
  | pB2
  | pB3
  | pBurst
  deriving DecidableEq, Repr

/-- The completion statuses (R43, R205). -/
inductive Status where
  | ok
  | busError
  | deviceNotReady
  | contractViolation
  deriving DecidableEq, Repr

/-- The selects of the overlay multiplexer (41_mode_overlay.md R125). -/
inductive OverlaySel where
  | sleep
  | restore
  | restartAi
  | reset
  deriving DecidableEq, Repr

/-- A transaction request: the five kinds of R51 to R54 with the fields each uses (R100). -/
inductive Request where
  /-- T_PROBE(dev8, timeoutMs) (R51). -/
  | probe (dev8 : Byte) (timeoutMs : BitVec 32)
  /-- T_RD1(dev8, reg) (R52). -/
  | rd1 (dev8 reg : Byte)
  /-- T_WR1(dev8, reg, b) (R53). -/
  | wr1 (dev8 reg b : Byte)
  /-- T_WRN(dev8, reg, [b0, b1, b2, b3]): PMC uses it only with four bytes (R53). -/
  | wrn (dev8 reg b0 b1 b2 b3 : Byte)
  /-- T_DELAY(ms), `ms` zero-extended to the 32-bit `arg` (R54, R100). -/
  | delay (ms : BitVec 32)
  deriving DecidableEq, Repr

/-- The answer to a request (R101). -/
inductive Answer where
  /-- To T_PROBE. -/
  | present (p : Bool)
  /-- `Ok(b)`, to T_RD1. -/
  | okByte (b : Byte)
  /-- `Ok`, to T_WR1 and T_WRN. -/
  | ok
  /-- `Err(e)`, to T_RD1, T_WR1 and T_WRN. -/
  | err (e : TransportError)
  /-- To T_DELAY. -/
  | done
  deriving DecidableEq, Repr

/-- One transaction of a trace: a request and its answer (R14). -/
structure Txn where
  request : Request
  answer : Answer
  deriving DecidableEq, Repr

/-- One draw of the transport oracle: what it answers to whichever request is outstanding (R8, R101).
DESIGN CHOICE, log 2: a draw holds an answer for each kind of request, so that every answer of R101 can be
drawn and none of a wrong kind. -/
structure Reply where
  /-- The answer if the request is a T_PROBE. -/
  present : Bool
  /-- The byte of `Ok(b)` if the request is a T_RD1. -/
  byte : Byte
  /-- `some e` is `Err(e)` and `none` is `Ok`, if the request is a T_RD1, T_WR1 or T_WRN. -/
  error : Option TransportError
  deriving DecidableEq, Repr

/-- One event from outside PMC (log 1). -/
inductive Input where
  /-- The host comes to the command port with a word and holds it there until it is taken (R44). -/
  | offer (w : CmdWord)
  /-- The transport answers the outstanding request (R50). -/
  | answer (y : Reply)
  /-- The answer to a request that a block reset abandoned arrives (R241; log 12). -/
  | lateAnswer (y : Reply)
  /-- The block reset of PMC (R240). -/
  | blockReset
  deriving DecidableEq, Repr

/-- The five working latches `L.*` (R34 to R37). -/
structure Latches where
  /-- `L.OLDMODE` (R35). -/
  oldMode : Byte
  /-- `L.PRE` (R36). -/
  pre : Byte
  /-- `L.CH` (R37). -/
  ch : BitVec 4
  /-- `L.ON` (R37). -/
  on : BitVec 12
  /-- `L.OFF` (R37). -/
  off : BitVec 12
  deriving DecidableEq, Repr

/-- The result register RES (R43). -/
structure Result where
  status : Status
  detail : TransportError
  deriving DecidableEq, Repr

/-- The state of one PMC instance and of its ports. -/
structure State where
  /-- CFG, immutable (R20). -/
  cfg : Cfg
  /-- The FSM state register (R40). -/
  st : FsmState
  /-- The working latches (R34). -/
  lat : Latches
  /-- The result register (R43). -/
  res : Result
  /-- The words the host is holding at the command port, oldest first; the first is presented (R44). -/
  offers : List CmdWord
  /-- What happens outside PMC from here on, in order (log 1). -/
  inputs : List Input
  /-- The answered transactions of the running command, or of the last one, oldest first (R14; the
  model's own field, log 13). -/
  trace : List Txn
  /-- Numbers the free values (the model's own field, log 4). -/
  draws : Nat
  deriving DecidableEq, Repr

/-- Why a step stops with a fault. -/
inductive Fault where
  /-- Raised by `takeInput`: the transport answers while no request is outstanding. R50 excludes it
  ("the transport returns exactly one answer for it") and gives it no effect. Safe (log 11). -/
  | unsolicitedAnswer
  deriving DecidableEq, Repr

/-- Why a step is given no meaning. -/
inductive Refusal where
  /-- Raised by an arm of `exec` whose command has no meaning yet; no arm does. Safe. -/
  | notModelled (mnemonic : String)
  /-- Raised by `accept` and `respond` under a CFG that is not well formed, for which "PMC's behaviour
  under an ill-formed CFG is not specified" (R33, U13). Safe (log 9). -/
  | illFormedCfg
  deriving DecidableEq, Repr

/-- After the block reset: IDLE, nothing outstanding, CFG as constructed (R49, R240). The latches and RES
are unspecified there; DESIGN CHOICE, log 5: they are named zero here. CFG: log 7, log 8. -/
def State.reset : State where
  cfg := Cfg.default
  st := .idle
  lat := { oldMode := 0, pre := 0, ch := 0, on := 0, off := 0 }
  res := { status := .ok, detail := 0 }
  offers := []
  inputs := []
  trace := []
  draws := 0

end Sys2Proof.Machine
end

