-- ==== Sys2Proof/Machine/Encoder.lean ====
section
/-! DEFINITION. The PWM duty-cycle encoder (43_set_channel_pwm.md R170 to R174) and its inverse (R59). -/

namespace Sys2Proof.Machine

/-- `count[7:0]`: bytes B0 and B2 (R173). -/
def lowByte (count : BitVec 12) : Byte := count.extractLsb' 0 8

/-- `{0b0000, count[11:8]}`: bytes B1 and B3 (R173). -/
def highByte (count : BitVec 12) : Byte := 0#4 ++ count.extractLsb' 8 4

/-- `Ak = LED0_ON_L_ADDR + 4 * ch + k` (R57, R174). -/
def channelReg (c : Cfg) (ch : BitVec 4) (k : Nat) : Byte :=
  BitVec.ofNat 8 (c.led0OnLAddr.toNat + stride * ch.toNat + k)

/-- The count two channel bytes stand for: `lo | (hi & 0x0F) << 8` (R59, R175). -/
def countOf (lo hi : Byte) : BitVec 12 := hi.extractLsb' 0 4 ++ lo

end Sys2Proof.Machine
end

