-- ==== Sys2Proof/Machine/Flags.lean ====
section
/-! DEFINITION. The status side of PMC: the codes of `st`, of RES.status and of the overlay select, the
derived `busy` and `cmd_ready`, and the result word. PMC has no other flags (10_state.md R43). -/

namespace Sys2Proof.Machine

/-- The 4-bit code of `st`; code 15 is unused (R40). -/
def FsmState.code : FsmState → BitVec 4
  | .idle => 0
  | .iProbe => 1
  | .rWr => 2
  | .rDly => 3
  | .fRd => 4
  | .fSleep => 5
  | .fPre => 6
  | .fWake => 7
  | .fDly => 8
  | .fRestart => 9
  | .pB0 => 10
  | .pB1 => 11
  | .pB2 => 12
  | .pB3 => 13
  | .pBurst => 14

/-- The 2-bit code of a status (R43). -/
def Status.code : Status → BitVec 2
  | .ok => 0
  | .busError => 1
  | .deviceNotReady => 2
  | .contractViolation => 3

/-- The status a 2-bit code stands for (R43). -/
def statusOfCode (c : BitVec 2) : Status :=
  match c.toNat with
  | 0 => .ok
  | 1 => .busError
  | 2 => .deviceNotReady
  -- a 2-bit field: what is left is 3
  | _ => .contractViolation

/-- The 2-bit code of an overlay select (R125). -/
def OverlaySel.code : OverlaySel → BitVec 2
  | .sleep => 0
  | .restore => 1
  | .restartAi => 2
  | .reset => 3

/-- `busy = (st != IDLE)` (R44). -/
def State.busy (s : State) : Bool := s.st != .idle

/-- `cmd_ready = (st == IDLE)` (R44). -/
def State.cmdReady (s : State) : Bool := s.st == .idle

/-- The result word presented to the host: the status code and the detail (R102). -/
def State.resultWord (s : State) : BitVec 2 × TransportError := (s.res.status.code, s.res.detail)

/-- `success` is status OK, `failure` any other (R97, R102). -/
def State.success (s : State) : Bool := s.resultWord.1 == 0

end Sys2Proof.Machine
end

