-- ==== Sys2Proof/Machine/Operands.lean ====
section
/-! DEFINITION. Operand assembly and the two numeric front ends: clamps and checks (30_encoding.md R87 to
R90), `computePrescale` (42_set_frequency.md R140 to R146), `thrPulse` (44_set_throttle.md R190 to R194). -/

namespace Sys2Proof.Machine

/-- `clamp(v, lo, hi) = max(lo, min(hi, v))` (00_scope.md R11). -/
def clampInt (v lo hi : Int) : Int := max lo (min hi v)

/-- `clamp12(x) = min(x, 4095)`: saturation, not truncation (R87, R171). -/
def clamp12 (x : BitVec 16) : BitVec 12 := BitVec.ofNat 12 (min x.toNat tickMax)

/-- `chanOK(ch) = (u(ch) <= 15)` (R88). -/
def chanOK (ch : BitVec 8) : Bool := decide (ch.toNat ≤ chMax)

/-- `ch[3:0]`, what `L.CH` takes (R88). -/
def latchedChannel (ch : BitVec 8) : BitVec 4 := ch.extractLsb' 0 4

/-- `clampThr(p) = clamp(p, -100, 100)` (R89, R191). -/
def clampThr (p : Int) : Int := clampInt p thrMin thrMax

/-- `fbits[31]` (R86). -/
def signBit (f : BitVec 32) : Bool := f.getLsbD 31

/-- `fbits[30:23]` (R86). -/
def exponentField (f : BitVec 32) : BitVec 8 := f.extractLsb' 23 8

/-- `fbits[22:0]` (R86). -/
def fractionField (f : BitVec 32) : BitVec 23 := f.extractLsb' 0 23

/-- Exponent all ones and fraction nonzero: a NaN (R90). -/
def isNaN (f : BitVec 32) : Bool := exponentField f == 0xFF && fractionField f != 0

/-- The magnitude of a finite pattern times `2^150`: bias 127 and 23 fraction bits, exponent 0 the zeros
and subnormals. PRESUMED, log 17: the binary32 layout is the IEEE 754 one (the spec's G11). -/
def scaledMagnitude (f : BitVec 32) : Nat :=
  if exponentField f = 0 then (fractionField f).toNat * 2
  else (2 ^ 23 + (fractionField f).toNat) * 2 ^ (exponentField f).toNat

/-- `real(fbits)` of a finite pattern, exactly (R12, R90). -/
def realOf (f : BitVec 32) : Frac where
  num := if signBit f then -(scaledMagnitude f : Int) else scaledMagnitude f
  den := 2 ^ 150

/-- `fc = clamp(f, 1, 3500)` on an exact rational (R90, R141). -/
def clampFreq (q : Frac) : Frac :=
  if q.num < freqMin * q.den then ⟨freqMin, 1⟩
  else if freqMax * q.den < q.num then ⟨freqMax, 1⟩
  else q

/-- Frequency decode and clamp: `none` is the NaN that is rejected (R90). -/
def decodeFreq (f : BitVec 32) : Option Frac :=
  if exponentField f = 0xFF then
    if fractionField f ≠ 0 then none
    else if signBit f then some ⟨freqMin, 1⟩ else some ⟨freqMax, 1⟩
  else some (clampFreq (realOf f))

/-- `rhaz(OSC_HZ / (fc * 4096))` for `fc = n / d`, in the all-integer form: `floor` of
`(2 * OSC_HZ * d + 4096 * n) / (8192 * n)` (R143, R144, R146). -/
def roundedQuotient (c : Cfg) (fc : Frac) : Int :=
  (2 * (c.oscHz.toNat : Int) * fc.den + ticks * fc.num) / (2 * ticks * fc.num)

/-- `computePrescale`: round, subtract 1, clamp to the bounds, take the byte (R143 to R145). -/
def computePrescale (c : Cfg) (fc : Frac) : Byte :=
  BitVec.ofInt 8 (clampInt (roundedQuotient c fc - 1) c.prescaleMin.toNat c.prescaleMax.toNat)

/-- `q = trunc0(clampThr(p) * (PULSE_MAX - PULSE_MIN) / 200)`: the product first, then the division,
truncating toward zero (R192). -/
def pulseOffset (c : Cfg) (p : Int) : Int :=
  (clampThr p * ((c.pulseMax.toNat : Int) - c.pulseMin.toNat)).tdiv thrDiv

/-- `thrPulse(p) = clamp(PULSE_NEUTRAL + q, PULSE_MIN, PULSE_MAX)` (R192, R193). -/
def thrPulse (c : Cfg) (p : Int) : BitVec 12 :=
  BitVec.ofInt 12 (clampInt (c.pulseNeutral.toNat + pulseOffset c p) c.pulseMin.toNat c.pulseMax.toNat)

/-- The throttle operand `p = s(b)` (R85). -/
def throttleOf (b : BitVec 16) : Int := b.toInt

end Sys2Proof.Machine
end

