-- ==== Sys2Proof/Machine/Overlay.lean ====
section
/-! DEFINITION. The mode-register overlay multiplexer (41_mode_overlay.md R125 to R129): the one source of
every byte PMC writes to MODE1. -/

namespace Sys2Proof.Machine

/-- `overlay(sel, m)` (R125). -/
def overlay (c : Cfg) (sel : OverlaySel) (m : Byte) : Byte :=
  match sel with
  -- R126
  | .sleep => (m &&& ~~~ c.restartMask) ||| c.sleepMask
  -- R127
  | .restore => m
  -- R128
  | .restartAi => m ||| c.restartMask ||| c.aiMask
  -- R129
  | .reset => c.restartMask

end Sys2Proof.Machine
end

