-- ==== Sys2Proof/Machine/Transport.lean ====
section
/-! DEFINITION. The transport port: the device address, the request record (30_encoding.md R100), the
answer a request gets from a draw of the oracle (R101). -/

namespace Sys2Proof.Machine

/-- `DEV8 = {DEV_ADDR7, 0b0}` (10_state.md R21). -/
def dev8 (c : Cfg) : Byte := c.devAddr7 ++ 0#1

/-- The transaction request record. A field a kind does not use carries no meaning (R100) and is absent. -/
structure RequestRecord where
  kind : BitVec 3
  dev8 : Option Byte
  reg : Option Byte
  len : Option (BitVec 3)
  /-- Byte 0 alone, or bytes 0 to 3 in address order. -/
  data : List Byte
  arg : Option (BitVec 32)
  deriving DecidableEq, Repr

/-- The record of a request (R100). -/
def requestRecord : Request → RequestRecord
  | .probe d t => { kind := 0, dev8 := some d, reg := none, len := none, data := [], arg := some t }
  | .rd1 d r => { kind := 1, dev8 := some d, reg := some r, len := none, data := [], arg := none }
  | .wr1 d r b => { kind := 2, dev8 := some d, reg := some r, len := none, data := [b], arg := none }
  | .wrn d r b0 b1 b2 b3 =>
      { kind := 3, dev8 := some d, reg := some r, len := some 4, data := [b0, b1, b2, b3], arg := none }
  | .delay ms => { kind := 4, dev8 := none, reg := none, len := none, data := [], arg := some ms }

/-- The answer a draw of the oracle gives to a request, of the kind R101 gives that request. -/
def answerOf (r : Request) (y : Reply) : Answer :=
  match r with
  | .probe _ _ => .present y.present
  | .rd1 _ _ => match y.error with
    | none => .okByte y.byte
    | some e => .err e
  | .wr1 _ _ _ => match y.error with
    | none => .ok
    | some e => .err e
  | .wrn _ _ _ _ _ _ => match y.error with
    | none => .ok
    | some e => .err e
  | .delay _ => .done

/-- Does an answer count as success in the table of 10_state.md R42? -/
def Answer.isSuccess : Answer → Bool
  | .present p => p
  | .okByte _ => true
  | .ok => true
  | .err _ => false
  | .done => true

end Sys2Proof.Machine
end

