-- ==== Sys2Proof/Machine/Ops.lean ====
section
/-! DEFINITION. The shared operations of the sequencer: the outstanding request, entering a state,
completing and failing a command, accepting a command, taking an answer, the block reset. -/

namespace Sys2Proof.Machine

/-- The request outstanding on the transport port: determined by `st`, the latches and CFG (10_state.md
R40, R42; the lines R110, R114, R151, R178, R179). -/
def State.request (s : State) : Option Request :=
  match s.st with
  | .idle => none
  | .iProbe => some (.probe (dev8 s.cfg) s.cfg.probeTimeoutMs)
  | .rWr => some (.wr1 (dev8 s.cfg) s.cfg.mode1Addr (overlay s.cfg .reset s.lat.oldMode))
  | .rDly => some (.delay (s.cfg.resetDelayMs.setWidth 32))
  | .fRd => some (.rd1 (dev8 s.cfg) s.cfg.mode1Addr)
  | .fSleep => some (.wr1 (dev8 s.cfg) s.cfg.mode1Addr (overlay s.cfg .sleep s.lat.oldMode))
  | .fPre => some (.wr1 (dev8 s.cfg) s.cfg.prescaleAddr s.lat.pre)
  | .fWake => some (.wr1 (dev8 s.cfg) s.cfg.mode1Addr (overlay s.cfg .restore s.lat.oldMode))
  | .fDly => some (.delay (s.cfg.oscSettleMs.setWidth 32))
  | .fRestart => some (.wr1 (dev8 s.cfg) s.cfg.mode1Addr (overlay s.cfg .restartAi s.lat.oldMode))
  | .pB0 => some (.wr1 (dev8 s.cfg) (channelReg s.cfg s.lat.ch 0) (lowByte s.lat.on))
  | .pB1 => some (.wr1 (dev8 s.cfg) (channelReg s.cfg s.lat.ch 1) (highByte s.lat.on))
  | .pB2 => some (.wr1 (dev8 s.cfg) (channelReg s.cfg s.lat.ch 2) (lowByte s.lat.off))
  | .pB3 => some (.wr1 (dev8 s.cfg) (channelReg s.cfg s.lat.ch 3) (highByte s.lat.off))
  | .pBurst => some (.wrn (dev8 s.cfg) (channelReg s.cfg s.lat.ch 0) (lowByte s.lat.on)
      (highByte s.lat.on) (lowByte s.lat.off) (highByte s.lat.off))

/-- The column "next on success" of the table of R42; IDLE after the last transaction of a line. -/
def nextOnSuccess : FsmState → FsmState
  | .idle => .idle
  | .iProbe => .rWr
  | .rWr => .rDly
  | .rDly => .idle
  | .fRd => .fSleep
  | .fSleep => .fPre
  | .fPre => .fWake
  | .fWake => .fDly
  | .fDly => .fRestart
  | .fRestart => .idle
  | .pB0 => .pB1
  | .pB1 => .pB2
  | .pB2 => .pB3
  | .pB3 => .idle
  | .pBurst => .idle

/-- `st <- S` (00_scope.md R13). -/
def State.enter (s : State) (next : FsmState) : State := { s with st := next }

/-- `L.OLDMODE <- b` (R35, R152). -/
def State.latchOldMode (s : State) (b : Byte) : State := { s with lat := { s.lat with oldMode := b } }

/-- `L.PRE <- b` (R36, R150). -/
def State.latchPre (s : State) (b : Byte) : State := { s with lat := { s.lat with pre := b } }

/-- `L.CH <- ch`, `L.ON <- on`, `L.OFF <- off` (R37, R176). -/
def State.latchChannel (s : State) (ch : BitVec 4) (on off : BitVec 12) : State :=
  { s with lat := { s.lat with ch := ch, on := on, off := off } }

/-- A transaction has been answered: it joins the trace of the running command (R14). -/
def State.record (s : State) (r : Request) (a : Answer) : State :=
  { s with trace := s.trace ++ [{ request := r, answer := a }] }

/-- A command begins: its trace is empty (R14). -/
def State.clearTrace (s : State) : State := { s with trace := [] }

/-- A command completes: RES is written once and `st` returns to IDLE; latches and CFG stay as they are
(R43, R212). Where no detail is given it is unspecified (R43): a free value (log 4). -/
def State.complete (s : State) (status : Status) (detail : Option TransportError) : State :=
  match detail with
  | some e => { s with st := .idle, res := { status := status, detail := e } }
  | none => { s with
      st := .idle
      res := { status := status, detail := Config.freeDetail s.draws }
      draws := s.draws + 1 }

/-- `done(OK)` (00_scope.md R13). -/
def State.done (s : State) : State := s.complete .ok none

/-- `raise <Status>(info)`: PMC's exception. In the same step RES is written, `st` becomes IDLE, nothing
further is issued, and latches and CFG stay as they are: no handler, no vector, no saved state (00_scope.md
R13, 60_exceptions.md R212). The return from it is the next command (R221): there is no operation. -/
def State.raise (s : State) (status : Status) (info : Option TransportError) : State :=
  s.complete status info

/-- A contract violation: CONTRACT_VIOLATION at once, no transaction, no latch (R94, R209). -/
def State.contractViolation (s : State) : State := s.raise .contractViolation none

/-- What every command does first. Under an ill-formed CFG it has no meaning (R33, U13; log 9). While PMC is
busy it is not accepted and has no effect (R44). In IDLE it is accepted, with an empty trace. -/
def accept (s : State) (run : State → State) : Host.Outcome State Fault Refusal :=
  if s.cfg.wf then
    if s.busy then .next s else .next (run s.clearTrace)
  else .refused .illFormedCfg

/-- The common end of SETPWM and SETTHR once the channel has passed: latch, and start the channel write in
the form CFG.BURST selects (R176, R178, R179, R196). -/
def State.startChannelWrite (s : State) (ch : BitVec 4) (on off : BitVec 12) : State :=
  (s.latchChannel ch on off).enter (if s.cfg.burst then .pBurst else .pB0)

/-- A successful answer: on to the next transaction of the line, or `done(OK)` after the last (R41, R42). -/
def State.proceed (s : State) : State :=
  match nextOnSuccess s.st with
  | .idle => s.done
  | next => s.enter next

/-- What one answer does: the rows of the table of R42. -/
def State.receive (s : State) (a : Answer) : State :=
  match a with
  | .err e => s.raise .busError (some e)
  | .present false => s.raise .deviceNotReady none
  | .present true => s.proceed
  | .okByte b => (s.latchOldMode b).proceed
  | .ok => s.proceed
  | .done => s.proceed

/-- The transport answers (R50): the answer goes to the outstanding request. With no request outstanding
there is nothing to answer (log 11). -/
def respond (s : State) (y : Reply) : Host.Outcome State Fault Refusal :=
  if s.cfg.wf then
    match s.request with
    | none => .fault .unsolicitedAnswer
    | some r => .next ((s.record r (answerOf r y)).receive (answerOf r y))
  else .refused .illFormedCfg

/-- The block reset: `st <- IDLE`, latches and RES unspecified (free values, log 6), CFG kept, nothing
issued; a running command is abandoned with no completion (R49, R240, R241). What the outside holds is
untouched (log 22). -/
def State.blockReset (s : State) : State :=
  { s with
    st := .idle
    lat := { oldMode := Config.freeOldMode s.draws
             pre := Config.freePre s.draws
             ch := Config.freeCh s.draws
             on := Config.freeOn s.draws
             off := Config.freeOff s.draws }
    res := { status := statusOfCode (Config.freeStatusCode s.draws)
             detail := Config.freeDetail s.draws }
    trace := []
    draws := s.draws + 1 }

/-- One event from outside (log 1). DESIGN CHOICE, log 25: under an ill-formed CFG, for which the spec gives no
behaviour (R33, U13), an offer, a late answer and a block reset do what they do under any other; only commands
and transport answers are refused there (log 9). -/
def takeInput (s : State) (i : Input) : Host.Outcome State Fault Refusal :=
  match i with
  -- R44: the host holds the word until cmd_ready
  | .offer w => .next { s with offers := s.offers ++ [w] }
  | .answer y => respond s y
  -- R241: ignored
  | .lateAnswer _ => .next s
  | .blockReset => .next s.blockReset

end Sys2Proof.Machine
end

