-- ==== Sys2Proof/Machine/Channel.lean ====
section
/-! DEFINITION. SETPWM (43_set_channel_pwm.md R176 to R179) and SETTHR (44_set_throttle.md R195, R196). -/

namespace Sys2Proof.Machine

/-- SETPWM: the channel check, then the clamped counts are latched and the first write is issued (R176,
R177). -/
def execSetpwm (ch : BitVec 8) (on off : BitVec 16) (s : State) : Host.Outcome State Fault Refusal :=
  accept s fun s =>
    if chanOK ch then s.startChannelWrite (latchedChannel ch) (clamp12 on) (clamp12 off)
    else s.contractViolation

/-- SETTHR: the channel check, then ON tick 0 and the pulse width are latched and the first write is issued
(R196, R197). -/
def execSetthr (ch : BitVec 8) (pct : BitVec 16) (s : State) : Host.Outcome State Fault Refusal :=
  accept s fun s =>
    if chanOK ch then s.startChannelWrite (latchedChannel ch) thrOn (thrPulse s.cfg (throttleOf pct))
    else s.contractViolation

end Sys2Proof.Machine
end

