-- ==== Sys2Proof/Machine/Frequency.lean ====
section
/-! DEFINITION. SETFREQ (42_set_frequency.md R150, R151). -/

namespace Sys2Proof.Machine

/-- SETFREQ: a NaN is a contract violation; otherwise `L.PRE <- computePrescale(fc)` and the MODE1 read is
issued (R150, R151). -/
def execSetfreq (fbits : BitVec 32) (s : State) : Host.Outcome State Fault Refusal :=
  accept s fun s =>
    match decodeFreq fbits with
    | none => s.contractViolation
    | some fc => (s.latchPre (computePrescale s.cfg fc)).enter .fRd

end Sys2Proof.Machine
end

