-- ==== Sys2Proof/Machine/Illegal.lean ====
section
/-! DEFINITION. The eleven illegal opcodes (30_encoding.md R93, R94): accepted in IDLE, each completes at
once with CONTRACT_VIOLATION, no transaction, every latch unchanged. -/

namespace Sys2Proof.Machine

/-- `op = 0x0` selects no command (R93). -/
def execIllegal0 (s : State) : Host.Outcome State Fault Refusal :=
  accept s State.contractViolation

/-- `op = 0x6` selects no command (R93). -/
def execIllegal6 (s : State) : Host.Outcome State Fault Refusal :=
  accept s State.contractViolation

/-- `op = 0x7` selects no command (R93). -/
def execIllegal7 (s : State) : Host.Outcome State Fault Refusal :=
  accept s State.contractViolation

/-- `op = 0x8` selects no command (R93). -/
def execIllegal8 (s : State) : Host.Outcome State Fault Refusal :=
  accept s State.contractViolation

/-- `op = 0x9` selects no command (R93). -/
def execIllegal9 (s : State) : Host.Outcome State Fault Refusal :=
  accept s State.contractViolation

/-- `op = 0xA` selects no command (R93). -/
def execIllegalA (s : State) : Host.Outcome State Fault Refusal :=
  accept s State.contractViolation

/-- `op = 0xB` selects no command (R93). -/
def execIllegalB (s : State) : Host.Outcome State Fault Refusal :=
  accept s State.contractViolation

/-- `op = 0xC` selects no command (R93). -/
def execIllegalC (s : State) : Host.Outcome State Fault Refusal :=
  accept s State.contractViolation

/-- `op = 0xD` selects no command (R93). -/
def execIllegalD (s : State) : Host.Outcome State Fault Refusal :=
  accept s State.contractViolation

/-- `op = 0xE` selects no command (R93). -/
def execIllegalE (s : State) : Host.Outcome State Fault Refusal :=
  accept s State.contractViolation

/-- `op = 0xF` selects no command (R93). -/
def execIllegalF (s : State) : Host.Outcome State Fault Refusal :=
  accept s State.contractViolation

end Sys2Proof.Machine
end

