-- ==== Sys2Proof/Machine/System.lean ====
section
/-! DEFINITION. RESET and INIT (40_reset_init.md R110 to R117). A meaning is what accepting the command
does; the rest of its line is driven by the transport's answers (`respond`). -/

namespace Sys2Proof.Machine

/-- RESET: `st <- R_WR`, the MODE1 write is issued (R110). -/
def execReset (s : State) : Host.Outcome State Fault Refusal :=
  accept s fun s => s.enter .rWr

/-- INIT: `st <- I_PROBE`, the probe is issued (R114). -/
def execInit (s : State) : Host.Outcome State Fault Refusal :=
  accept s fun s => s.enter .iProbe

end Sys2Proof.Machine
end

