-- ==== Sys2Proof/Machine/Dispatch.lean ====
section
/-! DEFINITION. One arm for each command and each illegal opcode (30_encoding.md R92, R93). -/

namespace Sys2Proof.Machine

def exec (i : Instr) (s : State) : Host.Outcome State Fault Refusal :=
  match i with
  | .reset => Sys2Proof.Machine.execReset s
  | .init => Sys2Proof.Machine.execInit s
  | .setfreq fbits => Sys2Proof.Machine.execSetfreq fbits s
  | .setpwm ch on off => Sys2Proof.Machine.execSetpwm ch on off s
  | .setthr ch pct => Sys2Proof.Machine.execSetthr ch pct s
  | .illegal0 => Sys2Proof.Machine.execIllegal0 s
  | .illegal6 => Sys2Proof.Machine.execIllegal6 s
  | .illegal7 => Sys2Proof.Machine.execIllegal7 s
  | .illegal8 => Sys2Proof.Machine.execIllegal8 s
  | .illegal9 => Sys2Proof.Machine.execIllegal9 s
  | .illegalA => Sys2Proof.Machine.execIllegalA s
  | .illegalB => Sys2Proof.Machine.execIllegalB s
  | .illegalC => Sys2Proof.Machine.execIllegalC s
  | .illegalD => Sys2Proof.Machine.execIllegalD s
  | .illegalE => Sys2Proof.Machine.execIllegalE s
  | .illegalF => Sys2Proof.Machine.execIllegalF s

end Sys2Proof.Machine
end

