-- ==== Sys2Proof/Machine/Step.lean ====
section
/-! DEFINITION. One step of PMC and its ports: one accepted event (00_scope.md R8, 92_eei_decisions.md D1). -/

namespace Sys2Proof.Machine

/-- In IDLE with a word held at the command port, that command is accepted (R44). Otherwise the next event
outside happens; if there is none, PMC waits (R50, U2). DESIGN CHOICE, log 10: a held word is accepted
before anything else happens. DESIGN CHOICE, log 25: PMC waits under an ill-formed CFG too. -/
def step (s : State) : Host.Outcome State Fault Refusal :=
  match s.cmdReady, s.offers, s.inputs with
  | true, w :: ws, _ => exec (decode w) { s with offers := ws }
  | _, _, i :: is => takeInput { s with inputs := is } i
  | _, _, [] => .next s

/-- `s` with the instruction whose bits are `w` presented at the command port and `cmd_ready` high, so that
the very next step accepts exactly it (log 15). -/
def State.withFetchWord (s : State) (nbits w : Nat) : State :=
  { s with st := .idle, offers := BitVec.ofNat 48 (w % 2 ^ nbits) :: s.offers }

end Sys2Proof.Machine
end

