-- ==== Sys2Proof/Machine/Memory.lean ====
section
/-! DEFINITION. The contents of the chip register space (20_memory.md R55) as a test double holds them: a
list of (address, byte) pairs in one canonical form, addresses strictly rising, no entry equal to what an
unlisted address reads as. -/

namespace Sys2Proof.Machine

/-- Register contents, keyed by register address. -/
abbrev Memory := List Host.Cell

/-- "a register never initialised reads 0x00" (95_test_vectors.md section 3.0, D24). -/
def unlistedByte : Byte := 0

/-- The canonical form: addresses strictly rising and below 256, no entry holds `unlistedByte`. -/
abbrev Memory.wf (m : Memory) : Prop :=
  m.Pairwise (fun x y => x.1 < y.1) ∧ ∀ x ∈ m, x.1 < 256 ∧ x.2 ≠ unlistedByte

/-- Read one byte. -/
def Memory.read (m : Memory) (a : Nat) : Byte :=
  match m with
  | [] => unlistedByte
  | (b, v) :: rest => if b = a then v else Memory.read rest a

/-- Store one byte, keeping the list sorted and free of unlisted bytes. -/
def Memory.write (m : Memory) (a : Nat) (v : Byte) : Memory :=
  match m with
  | [] => if v = unlistedByte then [] else [(a, v)]
  | (b, u) :: rest =>
    if b < a then (b, u) :: Memory.write rest a v
    else if b = a then (if v = unlistedByte then rest else (a, v) :: rest)
    else if v = unlistedByte then (b, u) :: rest
    else (a, v) :: (b, u) :: rest

end Sys2Proof.Machine
end

