-- ==== Sys2Proof/Machine/Eref.lean ====
section
/-! DEFINITION. The reference environment E_ref (95_test_vectors.md section 3.0, 92_eei_decisions.md D24): the
spec's own test double of the transport and the register file behind it, and PMC closed with it. It is not
a model of the chip and no meaning of PMC uses it (log 16). -/

namespace Sys2Proof.Machine

/-- E_ref: a register file, a presence bit, and the transaction indices that fail. -/
structure Eref where
  reg : Memory
  present : Bool
  /-- Transaction indices, counted from 1 over every kind of transaction. -/
  fail : List Nat
  /-- How many transactions have been answered so far. -/
  count : Nat
  /-- The `e` of its `Err(e)`. -/
  errorValue : TransportError
  deriving DecidableEq, Repr

/-- The register address `reg + i` of byte `i` of a burst. DESIGN CHOICE, log 16: it stays in the 8-bit
space; under WF2 no burst of PMC reaches its end. -/
def burstAddr (reg : Byte) (i : Nat) : Nat := (reg + BitVec.ofNat 8 i).toNat

/-- Do the stores of a request's data bytes (R53). -/
def Memory.store (m : Memory) (r : Request) : Memory :=
  match r with
  | .probe _ _ => m
  | .rd1 _ _ => m
  | .wr1 _ a b => m.write a.toNat b
  | .wrn _ a b0 b1 b2 b3 =>
      (((m.write (burstAddr a 0) b0).write (burstAddr a 1) b1).write (burstAddr a 2) b2).write
        (burstAddr a 3) b3
  | .delay _ => m

/-- The byte a T_RD1 answers, "the stored byte". -/
def Memory.loaded (m : Memory) (r : Request) : Byte :=
  match r with
  | .rd1 _ a => m.read a.toNat
  | .probe _ _ => unlistedByte
  | .wr1 _ _ _ => unlistedByte
  | .wrn _ _ _ _ _ _ => unlistedByte
  | .delay _ => unlistedByte

/-- Can a request be failed by `fail`: "probe and delay are not failed by `fail`". -/
def Request.canFail : Request → Bool
  | .probe _ _ => false
  | .rd1 _ _ => true
  | .wr1 _ _ _ => true
  | .wrn _ _ _ _ _ _ => true
  | .delay _ => false

/-- Does the next transaction, `r`, fail? -/
def Eref.fails (e : Eref) (r : Request) : Bool := r.canFail && e.fail.contains (e.count + 1)

/-- What E_ref answers to `r`. -/
def Eref.reply (e : Eref) (r : Request) : Reply where
  present := e.present
  byte := e.reg.loaded r
  error := if e.fails r then some e.errorValue else none

/-- E_ref after `r`: a failed transaction "changes nothing" but the count. -/
def Eref.after (e : Eref) (r : Request) : Eref :=
  { e with
    reg := if e.fails r then e.reg else e.reg.store r
    count := e.count + 1 }

/-- PMC and E_ref together. -/
structure Bench where
  pmc : State
  env : Eref
  deriving DecidableEq, Repr

/-- Keep an outcome of PMC beside an environment. -/
def Bench.withEnv (env : Eref) : Host.Outcome State Fault Refusal → Host.Outcome Bench Fault Refusal
  | .next s => .next { pmc := s, env := env }
  | .fault f => .fault f
  | .refused r => .refused r

/-- One step of the pair: E_ref answers the outstanding request at once; otherwise PMC steps alone. -/
def Bench.step (b : Bench) : Host.Outcome Bench Fault Refusal :=
  match b.pmc.request with
  | some r => Bench.withEnv (b.env.after r) (Sys2Proof.Machine.step
      { b.pmc with inputs := .answer (b.env.reply r) :: b.pmc.inputs })
  | none => Bench.withEnv b.env (Sys2Proof.Machine.step b.pmc)

/-- `k` steps of the pair. -/
def Bench.run : Nat → Bench → Host.Outcome Bench Fault Refusal
  | 0, b => .next b
  | k + 1, b =>
    match b.step with
    | .next b' => b'.run k
    | .fault f => .fault f
    | .refused r => .refused r

end Sys2Proof.Machine
end

