-- ==== Sys2Proof/Safety.lean ====
section
/-! DEFINITION. The terms claims are stated in: the line of transactions of each command, the invariant of
every step, what a run may not depend on, and the exact-rational reading of the numeric front ends. The
lines are written out from the commands' rules and do not mention the sequencer. -/

namespace Sys2Proof.Machine

/-! ## Encoding -/

/-- The bits a command reads: `op` and the fields R92 lists for it. -/
def usedMask : Instr → CmdWord
  | .reset => 0xF00000000000
  | .init => 0xF00000000000
  | .setfreq _ => 0xF000FFFFFFFF
  | .setpwm _ _ _ => 0xF0FFFFFFFFFF
  | .setthr _ _ => 0xF0FF0000FFFF
  | .illegal0 => 0xF00000000000
  | .illegal6 => 0xF00000000000
  | .illegal7 => 0xF00000000000
  | .illegal8 => 0xF00000000000
  | .illegal9 => 0xF00000000000
  | .illegalA => 0xF00000000000
  | .illegalB => 0xF00000000000
  | .illegalC => 0xF00000000000
  | .illegalD => 0xF00000000000
  | .illegalE => 0xF00000000000
  | .illegalF => 0xF00000000000

/-- Is it one of the eleven illegal opcodes (R93)? -/
def isIllegal : Instr → Bool
  | .reset => false
  | .init => false
  | .setfreq _ => false
  | .setpwm _ _ _ => false
  | .setthr _ _ => false
  | .illegal0 => true
  | .illegal6 => true
  | .illegal7 => true
  | .illegal8 => true
  | .illegal9 => true
  | .illegalA => true
  | .illegalB => true
  | .illegalC => true
  | .illegalD => true
  | .illegalE => true
  | .illegalF => true

/-- Is the command a contract violation: an illegal opcode, a channel above 15, a NaN (R94)? -/
def violatesContract : Instr → Bool
  | .reset => false
  | .init => false
  | .setfreq f => isNaN f
  | .setpwm ch _ _ => decide (15 < ch.toNat)
  | .setthr ch _ => decide (15 < ch.toNat)
  | .illegal0 => true
  | .illegal6 => true
  | .illegal7 => true
  | .illegal8 => true
  | .illegal9 => true
  | .illegalA => true
  | .illegalB => true
  | .illegalC => true
  | .illegalD => true
  | .illegalE => true
  | .illegalF => true

/-- The channel and the two counts a channel command asks for: the operands clamped to 4095 (R87, R176), or 0
and the pulse width (R196). -/
def channelCounts (c : Cfg) : Instr → Option (BitVec 8 × Nat × Nat)
  | .reset => none
  | .init => none
  | .setfreq _ => none
  | .setpwm ch on off => some (ch, min on.toNat 4095, min off.toNat 4095)
  | .setthr ch pct => some (ch, 0, (thrPulse c pct.toInt).toNat)
  | .illegal0 => none
  | .illegal6 => none
  | .illegal7 => none
  | .illegal8 => none
  | .illegal9 => none
  | .illegalA => none
  | .illegalB => none
  | .illegalC => none
  | .illegalD => none
  | .illegalE => none
  | .illegalF => none

/-! ## Runs -/

/-- `k` steps, stopping at the first fault or refusal: `Host.Core.run` of this machine. -/
def run : Nat → State → Host.Outcome State Fault Refusal
  | 0, s => .next s
  | k + 1, s =>
    match step s with
    | .next t => run k t
    | .fault f => .fault f
    | .refused r => .refused r

/-! ## The lines of transactions -/

/-- The sequences of transactions. SETPWM and SETTHR share one (R41). -/
inductive Line where
  | reset
  | init
  | setfreq
  | channel
  deriving DecidableEq, Repr

/-- The write and the delay of RESET (R110, R111). -/
def resetRequests (c : Cfg) : List Request :=
  [.wr1 (dev8 c) c.mode1Addr c.restartMask, .delay (c.resetDelayMs.setWidth 32)]

/-- The probe, then RESET's (R114). -/
def initRequests (c : Cfg) : List Request := .probe (dev8 c) c.probeTimeoutMs :: resetRequests c

/-- Steps 3 to 8 of SETFREQ (R151), `m` the MODE1 byte read at step 3. -/
def setfreqRequests (c : Cfg) (m pre : Byte) : List Request :=
  [.rd1 (dev8 c) c.mode1Addr,
   .wr1 (dev8 c) c.mode1Addr ((m &&& ~~~ c.restartMask) ||| c.sleepMask),
   .wr1 (dev8 c) c.prescaleAddr pre,
   .wr1 (dev8 c) c.mode1Addr m,
   .delay (c.oscSettleMs.setWidth 32),
   .wr1 (dev8 c) c.mode1Addr (m ||| c.restartMask ||| c.aiMask)]

/-- The channel write: four single writes, or one burst (R178, R179). -/
def channelRequests (c : Cfg) (ch : BitVec 4) (on off : BitVec 12) : List Request :=
  if c.burst then
    [.wrn (dev8 c) (channelReg c ch 0) (lowByte on) (highByte on) (lowByte off) (highByte off)]
  else
    [.wr1 (dev8 c) (channelReg c ch 0) (lowByte on),
     .wr1 (dev8 c) (channelReg c ch 1) (highByte on),
     .wr1 (dev8 c) (channelReg c ch 2) (lowByte off),
     .wr1 (dev8 c) (channelReg c ch 3) (highByte off)]

/-- The requests of a line, for the latches as they stand. -/
def Line.requests (ln : Line) (c : Cfg) (l : Latches) : List Request :=
  match ln with
  | .reset => resetRequests c
  | .init => initRequests c
  | .setfreq => setfreqRequests c l.oldMode l.pre
  | .channel => channelRequests c l.ch l.on l.off

/-- The states of a line in order (R40, R42). -/
def Line.states (ln : Line) (c : Cfg) : List FsmState :=
  match ln with
  | .reset => [.rWr, .rDly]
  | .init => [.iProbe, .rWr, .rDly]
  | .setfreq => [.fRd, .fSleep, .fPre, .fWake, .fDly, .fRestart]
  | .channel => if c.burst then [.pBurst] else [.pB0, .pB1, .pB2, .pB3]

/-! ## The invariant -/

/-- A command on line `ln` is running: `st` is the line's state at the place the trace has reached, the
requests issued so far are the line's first ones in order, every answered one succeeded, and the byte read
is the one latched (R42, R64, R152). -/
structure State.Running (s : State) (ln : Line) : Prop where
  position : (ln.states s.cfg)[s.trace.length]? = some s.st
  inOrder : s.trace.map Txn.request ++ s.request.toList =
    (ln.requests s.cfg s.lat).take (s.trace.length + 1)
  succeeded : ∀ t ∈ s.trace, t.answer.isSuccess = true
  snapshot : ∀ t ∈ s.trace, ∀ b, t.answer = .okByte b → b = s.lat.oldMode

/-- A command on line `ln` has completed: its requests are the line's first ones in order, all but the last
succeeded, and RES tells of the last one: a failure with its status, or OK at the end of the line (R43,
R212, R215). -/
structure State.Completed (s : State) (ln : Line) (earlier : List Txn) (last : Txn) : Prop where
  parts : s.trace = earlier ++ [last]
  inOrder : s.trace.map Txn.request = (ln.requests s.cfg s.lat).take s.trace.length
  succeeded : ∀ t ∈ earlier, t.answer.isSuccess = true
  onError : ∀ e, last.answer = .err e → s.res = { status := .busError, detail := e }
  onAbsent : last.answer = .present false → s.res.status = .deviceNotReady
  onSuccess : last.answer.isSuccess = true →
    s.res.status = .ok ∧ s.trace.length = (ln.requests s.cfg s.lat).length

/-- The invariant of PMC. `preBounds` is R36: while SETFREQ runs, `L.PRE` is within the bounds. -/
structure State.Inv (s : State) : Prop where
  cfgWf : s.cfg.wf = true
  running : s.st ≠ .idle → ∃ ln, s.Running ln
  completed : s.st = .idle → s.trace = [] ∨ ∃ ln earlier last, s.Completed ln earlier last
  preBounds : s.st ∈ Line.setfreq.states s.cfg →
    s.cfg.prescaleMin.toNat ≤ s.lat.pre.toNat ∧ s.lat.pre.toNat ≤ s.cfg.prescaleMax.toNat

/-! ## What a run may not depend on -/

/-- Both outcomes are next states related by `R`, or they are the same stop. -/
def outcomesAgree (R : State → State → Prop) :
    Host.Outcome State Fault Refusal → Host.Outcome State Fault Refusal → Prop
  | .next s, .next t => R s t
  | .fault f, .fault g => f = g
  | .refused q, .refused r => q = r
  | _, _ => False

/-- The latches that hold something in a state agree: those the running command has written and may still
read (R34, R38). -/
def liveLatchesAgree (st : FsmState) (l k : Latches) : Prop :=
  match st with
  | .idle => True
  | .iProbe => True
  | .rWr => True
  | .rDly => True
  | .fRd => l.pre = k.pre
  | .fSleep => l.oldMode = k.oldMode ∧ l.pre = k.pre
  | .fPre => l.oldMode = k.oldMode ∧ l.pre = k.pre
  | .fWake => l.oldMode = k.oldMode
  | .fDly => l.oldMode = k.oldMode
  | .fRestart => l.oldMode = k.oldMode
  | .pB0 => l.ch = k.ch ∧ l.on = k.on ∧ l.off = k.off
  | .pB1 => l.ch = k.ch ∧ l.on = k.on ∧ l.off = k.off
  | .pB2 => l.ch = k.ch ∧ l.on = k.on ∧ l.off = k.off
  | .pB3 => l.ch = k.ch ∧ l.on = k.on ∧ l.off = k.off
  | .pBurst => l.ch = k.ch ∧ l.on = k.on ∧ l.off = k.off

/-- Two states that differ at most in dead latches, in RES, and in the number of the next free value. -/
structure State.SameLive (s t : State) : Prop where
  cfg : s.cfg = t.cfg
  st : s.st = t.st
  offers : s.offers = t.offers
  inputs : s.inputs = t.inputs
  trace : s.trace = t.trace
  latches : liveLatchesAgree s.st s.lat t.lat

/-- RES tells the host the same in both: the status, and the detail where the status is BUS_ERROR (R43). -/
def sameResult (r q : Result) : Prop :=
  r.status = q.status ∧ (r.status = .busError → r.detail = q.detail)

/-! ## Exact rationals -/

/-- The rational a fraction stands for. -/
def fracToRat (q : Frac) : ℚ := (q.num : ℚ) / (q.den : ℚ)

/-- The real number a finite binary32 pattern denotes, by the IEEE 754 layout (R12, G11): sign, exponent
with bias 127, hidden bit unless the exponent is 0. -/
def real32 (f : BitVec 32) : ℚ :=
  (if signBit f then -1 else 1) *
    (if exponentField f = 0 then ((fractionField f).toNat / 2 ^ 23 : ℚ) * (2 : ℚ) ^ (-126 : ℤ)
     else (1 + (fractionField f).toNat / 2 ^ 23 : ℚ) * (2 : ℚ) ^ ((exponentField f).toNat - 127 : ℤ))

/-- `clamp` on rationals (R11). -/
def clampRat (q lo hi : ℚ) : ℚ := max lo (min hi q)

/-- Frequency decode and clamp as R90 writes it, on rationals. -/
def referenceFreq (f : BitVec 32) : Option ℚ :=
  if exponentField f = 0xFF ∧ fractionField f ≠ 0 then none
  else if exponentField f = 0xFF ∧ signBit f = false then some 3500
  else if exponentField f = 0xFF then some 1
  else some (clampRat (real32 f) 1 3500)

/-- `rhaz(q) = floor(q + 1/2)`, for `q >= 0` (R12, R144). -/
def rhaz (q : ℚ) : ℤ := ⌊q + 1 / 2⌋

/-- `trunc0(q)`: the integer nearest to zero-ward (R12). -/
def trunc0 (q : ℚ) : ℤ := if 0 ≤ q then ⌊q⌋ else -⌊-q⌋

/-- `thrPulse` as R191 to R193 write it, on rationals, before it is put in 12 bits. -/
def referencePulse (c : Cfg) (p : ℤ) : ℤ :=
  let pc : ℤ := max (-100) (min 100 p)
  let span : ℤ := (c.pulseMax.toNat : ℤ) - c.pulseMin.toNat
  let w : ℤ := c.pulseNeutral.toNat + trunc0 (((pc * span : ℤ) : ℚ) / 200)
  max (c.pulseMin.toNat : ℤ) (min (c.pulseMax.toNat : ℤ) w)

/-- `computePrescale` as R143 to R145 write it, on rationals, before the conversion to a byte. -/
def referencePrescale (c : Cfg) (fc : ℚ) : ℤ :=
  let v := rhaz (c.oscHz.toNat / (fc * 4096)) - 1
  if v < c.prescaleMin.toNat then c.prescaleMin.toNat
  else if c.prescaleMax.toNat < v then c.prescaleMax.toNat
  else v

/-! ## Requests -/

/-- The register addresses a request names (R56), in order. -/
def Request.regs : Request → List Byte
  | .probe _ _ => []
  | .rd1 _ a => [a]
  | .wr1 _ a _ => [a]
  | .wrn _ a _ _ _ _ => [a, a + 1, a + 2, a + 3]
  | .delay _ => []

/-- The (address, byte) pairs a request sends to the chip, in order (R53). -/
def Request.writes : Request → List (Byte × Byte)
  | .probe _ _ => []
  | .rd1 _ _ => []
  | .wr1 _ a b => [(a, b)]
  | .wrn _ a b0 b1 b2 b3 => [(a, b0), (a + 1, b1), (a + 2, b2), (a + 3, b3)]
  | .delay _ => []

/-- The milliseconds a request makes PMC wait at least (R54, R263). -/
def Request.waitMs : Request → Nat
  | .probe _ _ => 0
  | .rd1 _ _ => 0
  | .wr1 _ _ _ => 0
  | .wrn _ _ _ _ _ _ => 0
  | .delay ms => ms.toNat

/-- The least time an answered trace has taken, by its delays alone (R264). -/
def minDurationMs (trace : List Txn) : Nat := (trace.map fun t => t.request.waitMs).sum

/-- A state in which the sequencer takes the next command: IDLE, CFG well formed. -/
structure State.Ready (s : State) : Prop where
  cfgWf : s.cfg.wf = true
  idle : s.st = .idle

/-- A state in which a command is running under a well-formed CFG. -/
structure State.Busy (s : State) : Prop where
  cfgWf : s.cfg.wf = true
  notIdle : s.st ≠ .idle

end Sys2Proof.Machine
end

