-- ==== Sys2Proof/Certificates/Slice0/Obligations.lean ====
section
/-! DEFINITION. The statements about PMC. Each docstring names the rules of spec/ it formalises. "Ready" is
IDLE under a well-formed CFG, "Busy" a running command under one (R33: claims are over well-formed CFG). -/

open Sys2Proof Sys2Proof.Machine

/-! ## Encoding -/

/-- 30_encoding.md R81, R92: decoding what the encoder writes gives the command back, every operand at every
value. -/
def Obligations.DecodeInvertsEncode : Prop :=
  ∀ i : Instr, decode (encode i) = i

/-- R81, R92, R96: encoding what the decoder reads gives the word back with zeros in the bits the command
ignores. -/
def Obligations.EncodeInvertsDecodeOnUsedBits : Prop :=
  ∀ w : CmdWord, encode (decode w) = w &&& usedMask (decode w)

/-- R96: two words that agree on `op` and on the fields the command reads are the same command. -/
def Obligations.IgnoredBitsDoNotDecode : Prop :=
  ∀ w v : CmdWord, w &&& usedMask (decode w) = v &&& usedMask (decode w) → decode v = decode w

/-- R103 and 95_test_vectors.md section 2.5: worked encodings. -/
def Obligations.WorkedEncodingsDecode : Prop :=
  decode 0x100000000000 = .reset ∧ decode 0x1F551234ABCD = .reset ∧ decode 0x200000000000 = .init ∧
  decode 0x300042480000 = .setfreq 0x42480000 ∧ decode 0x400300640800 = .setpwm 3 100 2048 ∧
  decode 0x50020000FFCE = .setthr 2 (BitVec.ofInt 16 (-50)) ∧ decode 0x401000000000 = .setpwm 16 0 0 ∧
  decode 0x400F1388FFFF = .setpwm 15 5000 65535 ∧ decode 0x500000000064 = .setthr 0 100 ∧
  decode 0x000000000000 = .illegal0 ∧ decode 0x600000000000 = .illegal6 ∧
  decode 0xF00000000000 = .illegalF

/-! ## A step -/

/-- R44, D1: in IDLE, the word held at the command port is taken and the step is that command's. -/
def Obligations.StepRunsDecodedCommand : Prop :=
  ∀ (s : State) (w : CmdWord) (ws : List CmdWord), s.st = .idle → s.offers = w :: ws →
    step s = exec (decode w) { s with offers := ws }

/-- R44, R216: while PMC is busy a command has no effect, and a step drops no word the host holds. -/
def Obligations.BusyTakesNoCommand : Prop :=
  ∀ s : State, s.Busy → (∀ i, exec i s = .next s) ∧
    ∀ t, step s = .next t → ∃ more, t.offers = s.offers ++ more

/-- R50, U2: a busy PMC whose transport never answers stays as it is, and so does an idle one with no
command. That this holds under an ill-formed CFG too is the model's choice (log 25). -/
def Obligations.PmcWaitsWhenNothingHappens : Prop :=
  ∀ s : State, (s.st ≠ .idle ∨ s.offers = []) → s.inputs = [] → step s = .next s

/-- R95, R211: under a well-formed CFG a step always answers a next state, but where the transport answers
with no request outstanding (the model's fault, log 11). -/
def Obligations.StepStopsOnlyOnUnsolicitedAnswer : Prop :=
  ∀ s : State, s.cfg.wf = true →
    (∃ t, step s = .next t) ∨
    (s.st = .idle ∧ s.offers = [] ∧ (∃ y is, s.inputs = .answer y :: is) ∧
      step s = .fault .unsolicitedAnswer)

/-- R33, U13: under an ill-formed CFG no command has a meaning (the model's refusal, log 9). -/
def Obligations.IllFormedCfgIsRefused : Prop :=
  ∀ (s : State) (i : Instr), s.cfg.wf = false → exec i s = .refused .illFormedCfg

/-! ## Accepting each command -/

/-- R110, R111: RESET goes to R_WR and issues the write of the literal RESTART_MASK to MODE1; no latch and
no other register of PMC changes. -/
def Obligations.ResetIsAccepted : Prop :=
  ∀ s : State, s.Ready → exec .reset s = .next { s with st := .rWr, trace := [] } ∧
    State.request { s with st := .rWr, trace := [] } =
      some (.wr1 (dev8 s.cfg) s.cfg.mode1Addr s.cfg.restartMask)

/-- R114: INIT goes to I_PROBE and issues the probe with CFG.PROBE_TIMEOUT_MS; no latch and no other register
of PMC changes. -/
def Obligations.InitIsAccepted : Prop :=
  ∀ s : State, s.Ready → exec .init s = .next { s with st := .iProbe, trace := [] } ∧
    State.request { s with st := .iProbe, trace := [] } =
      some (.probe (dev8 s.cfg) s.cfg.probeTimeoutMs)

/-- R150, R151, R94: SETFREQ of anything but a NaN latches `computePrescale` of the decoded frequency and
issues the MODE1 read; no other latch and no other register of PMC changes. -/
def Obligations.SetfreqIsAccepted : Prop :=
  ∀ (s : State) (f : BitVec 32), s.Ready → isNaN f = false → ∃ fc, decodeFreq f = some fc ∧
    exec (.setfreq f) s = .next { s with
      st := .fRd, lat := { s.lat with pre := computePrescale s.cfg fc }, trace := [] } ∧
    State.request { s with
      st := .fRd, lat := { s.lat with pre := computePrescale s.cfg fc }, trace := [] } =
      some (.rd1 (dev8 s.cfg) s.cfg.mode1Addr)

/-- R176, R87, R88: SETPWM of a channel up to 15 latches the channel and the two counts clamped to 4095 and
starts the form CFG.BURST selects; no other latch and no other register of PMC changes. -/
def Obligations.SetpwmIsAccepted : Prop :=
  ∀ (s : State) (ch : BitVec 8) (on off : BitVec 16), s.Ready → ch.toNat ≤ 15 →
    exec (.setpwm ch on off) s = .next { s with
      st := if s.cfg.burst then .pBurst else .pB0
      lat := { s.lat with
        ch := BitVec.ofNat 4 ch.toNat
        on := BitVec.ofNat 12 (min on.toNat 4095)
        off := BitVec.ofNat 12 (min off.toNat 4095) }
      trace := [] }

/-- R196: SETTHR of a channel up to 15 latches the channel, ON tick 0 and the pulse width and starts the form
CFG.BURST selects; no other latch and no other register of PMC changes. -/
def Obligations.SetthrIsAccepted : Prop :=
  ∀ (s : State) (ch : BitVec 8) (pct : BitVec 16), s.Ready → ch.toNat ≤ 15 →
    exec (.setthr ch pct) s = .next { s with
      st := if s.cfg.burst then .pBurst else .pB0
      lat := { s.lat with
        ch := BitVec.ofNat 4 ch.toNat, on := 0, off := thrPulse s.cfg pct.toInt }
      trace := [] }

/-- R93: the illegal words are those with `op` 0x0 and 0x6 to 0xF, and each of the eleven, accepted in IDLE,
completes at once with CONTRACT_VIOLATION, no transaction issued and every latch unchanged. -/
def Obligations.IllegalOpcodeCompletesAtOnce : Prop :=
  (∀ w : CmdWord, isIllegal (decode w) = true ↔ (opField w = 0 ∨ 6 ≤ (opField w).toNat)) ∧
  ∀ (s : State) (i : Instr), s.Ready → isIllegal i = true → ∃ d n,
    exec i s = .next { s with
      st := .idle
      res := { status := .contractViolation, detail := d }
      trace := []
      draws := n } ∧
    State.request { s with
      st := .idle
      res := { status := .contractViolation, detail := d }
      trace := []
      draws := n } = none

/-- R94: the contract violations are exactly the illegal opcodes, a channel above 15 in SETPWM or SETTHR, and
a NaN in SETFREQ. Each completes with CONTRACT_VIOLATION, no transaction and every latch as it was; every
other command is running after its acceptance, with RES as it was. -/
def Obligations.ContractViolationsFailFast : Prop :=
  ∀ (s : State) (i : Instr), s.Ready →
    (violatesContract i = true → ∃ d n, exec i s = .next { s with
      st := .idle, res := { status := .contractViolation, detail := d }, trace := [], draws := n }) ∧
    (violatesContract i = false → ∃ t, exec i s = .next t ∧ t.st ≠ .idle ∧ t.res = s.res)

/-- R196: SETTHR ch, p is SETPWM ch, 0, thrPulse(p), in every state and for every operand. -/
def Obligations.SetthrIsSetpwmOfThePulse : Prop :=
  ∀ (s : State) (ch : BitVec 8) (pct : BitVec 16),
    exec (.setthr ch pct) s =
      exec (.setpwm ch 0 ((thrPulse s.cfg pct.toInt).setWidth 16)) s

/-- The frame of acceptance, all sixteen rows (R34 to R37, R43, R94): CFG and what the outside holds never
change, nor does L.OLDMODE; L.PRE changes only in SETFREQ; L.CH, L.ON and L.OFF only in SETPWM and SETTHR;
RES only in a contract violation, which changes no latch. -/
def Obligations.AcceptanceFrame : Prop :=
  ∀ (s t : State) (i : Instr), exec i s = .next t →
    t.cfg = s.cfg ∧ t.offers = s.offers ∧ t.inputs = s.inputs ∧ t.lat.oldMode = s.lat.oldMode ∧
    ((∀ f, i ≠ .setfreq f) → t.lat.pre = s.lat.pre) ∧
    ((∀ ch on off, i ≠ .setpwm ch on off) → (∀ ch p, i ≠ .setthr ch p) →
      t.lat.ch = s.lat.ch ∧ t.lat.on = s.lat.on ∧ t.lat.off = s.lat.off) ∧
    (violatesContract i = false → t.res = s.res) ∧
    (violatesContract i = true → t.lat = s.lat)

/-! ## Answers -/

/-- R101: a request can be given every answer of its kind, and none of another. -/
def Obligations.TransportMayGiveAnyAnswerOfItsKind : Prop :=
  (∀ d n p, ∃ y, answerOf (.probe d n) y = .present p) ∧
  (∀ d n y, ∃ p, answerOf (.probe d n) y = .present p) ∧
  (∀ d r b, ∃ y, answerOf (.rd1 d r) y = .okByte b) ∧
  (∀ d r e, ∃ y, answerOf (.rd1 d r) y = .err e) ∧
  (∀ d r y, (∃ b, answerOf (.rd1 d r) y = .okByte b) ∨ (∃ e, answerOf (.rd1 d r) y = .err e)) ∧
  (∀ d r b, (∃ y, answerOf (.wr1 d r b) y = .ok) ∧ (∀ e, ∃ y, answerOf (.wr1 d r b) y = .err e) ∧
    ∀ y, answerOf (.wr1 d r b) y = .ok ∨ ∃ e, answerOf (.wr1 d r b) y = .err e) ∧
  (∀ d r b0 b1 b2 b3, (∃ y, answerOf (.wrn d r b0 b1 b2 b3) y = .ok) ∧
    (∀ e, ∃ y, answerOf (.wrn d r b0 b1 b2 b3) y = .err e) ∧
    ∀ y, answerOf (.wrn d r b0 b1 b2 b3) y = .ok ∨
      ∃ e, answerOf (.wrn d r b0 b1 b2 b3) y = .err e) ∧
  (∀ ms y, answerOf (.delay ms) y = .done)

/-- R41, R42: a successful answer takes `st` from one state of a line to the next, with RES as it was, or
from the last to IDLE with status OK; the byte of the MODE1 read is latched; no other latch changes. -/
def Obligations.SuccessAdvancesAlongTheLine : Prop :=
  ∀ (s : State) (ln : Line) (k : Nat) (r : Request) (y : Reply) (is : List Input),
    s.Busy → (ln.states s.cfg)[k]? = some s.st → s.request = some r →
    s.inputs = .answer y :: is → (answerOf r y).isSuccess = true →
    ∃ t, step s = .next t ∧ t.cfg = s.cfg ∧ t.offers = s.offers ∧ t.inputs = is ∧
      t.trace = s.trace ++ [{ request := r, answer := answerOf r y }] ∧
      t.lat = (if s.st = .fRd then { s.lat with oldMode := y.byte } else s.lat) ∧
      (∀ n, (ln.states s.cfg)[k + 1]? = some n → t.st = n ∧ t.res = s.res) ∧
      ((ln.states s.cfg)[k + 1]? = none → t.st = .idle ∧ t.res.status = .ok)

/-- R206, R212: an `Err(e)` ends the command in that step: RES = (BUS_ERROR, e), `st` = IDLE, nothing further
issued, latches and CFG as they were. -/
def Obligations.BusErrorEndsTheCommand : Prop :=
  ∀ (s : State) (r : Request) (y : Reply) (e : TransportError) (is : List Input),
    s.Busy → s.request = some r → s.inputs = .answer y :: is → answerOf r y = .err e →
    step s = .next { s with
      st := .idle
      res := { status := .busError, detail := e }
      inputs := is
      trace := s.trace ++ [{ request := r, answer := .err e }] } ∧
    State.request { s with
      st := .idle
      res := { status := .busError, detail := e }
      inputs := is
      trace := s.trace ++ [{ request := r, answer := .err e }] } = none

/-- R207, R212: a probe answered `false` ends INIT in that step: RES.status = DEVICE_NOT_READY, `st` = IDLE,
nothing further issued, latches and CFG as they were. -/
def Obligations.AbsentDeviceEndsInit : Prop :=
  ∀ (s : State) (y : Reply) (is : List Input),
    s.cfg.wf = true → s.st = .iProbe → s.inputs = .answer y :: is → y.present = false →
    ∃ d n, step s = .next { s with
      st := .idle
      res := { status := .deviceNotReady, detail := d }
      inputs := is
      trace := s.trace ++ [{
        request := .probe (dev8 s.cfg) s.cfg.probeTimeoutMs, answer := .present false }]
      draws := n }

/-! ## Whole commands -/

/-- R110, R112, R113: RESET whose write is answered `Ok` issues the write, then the delay, and completes with
OK; RES.detail is unspecified. -/
def Obligations.ResetRunsToOk : Prop :=
  ∀ (s : State) (w : CmdWord) (ws : List CmdWord) (y z : Reply) (is : List Input),
    s.Ready → decode w = .reset → s.offers = w :: ws → s.inputs = .answer y :: .answer z :: is →
    y.error = none →
    ∃ d n, run 3 s = .next { s with
      offers := ws
      inputs := is
      res := { status := .ok, detail := d }
      trace := [⟨.wr1 (dev8 s.cfg) s.cfg.mode1Addr s.cfg.restartMask, .ok⟩,
                ⟨.delay (s.cfg.resetDelayMs.setWidth 32), .done⟩]
      draws := n }

/-- R114, R117: INIT with the device present and the write answered `Ok` probes, writes, waits and completes
with OK. -/
def Obligations.InitRunsToOk : Prop :=
  ∀ (s : State) (w : CmdWord) (ws : List CmdWord) (x y z : Reply) (is : List Input),
    s.Ready → decode w = .init → s.offers = w :: ws →
    s.inputs = .answer x :: .answer y :: .answer z :: is → x.present = true → y.error = none →
    ∃ d n, run 4 s = .next { s with
      offers := ws
      inputs := is
      res := { status := .ok, detail := d }
      trace := [⟨.probe (dev8 s.cfg) s.cfg.probeTimeoutMs, .present true⟩,
                ⟨.wr1 (dev8 s.cfg) s.cfg.mode1Addr s.cfg.restartMask, .ok⟩,
                ⟨.delay (s.cfg.resetDelayMs.setWidth 32), .done⟩]
      draws := n }

/-- R115: INIT of an absent device has the single probe as its trace and the status DEVICE_NOT_READY; no
T_WR1, no T_WRN, no T_RD1 and no T_DELAY is issued. -/
def Obligations.InitOfAbsentDeviceOnlyProbes : Prop :=
  ∀ (s : State) (w : CmdWord) (ws : List CmdWord) (x : Reply) (is : List Input),
    s.Ready → decode w = .init → s.offers = w :: ws → s.inputs = .answer x :: is →
    x.present = false →
    ∃ d n, run 2 s = .next { s with
      offers := ws
      inputs := is
      res := { status := .deviceNotReady, detail := d }
      trace := [⟨.probe (dev8 s.cfg) s.cfg.probeTimeoutMs, .present false⟩]
      draws := n }

/-- R151, R158, R159: SETFREQ whose read and four writes succeed issues exactly read MODE1, write MODE1 (sleep
variant), write PRESCALE, write MODE1 (restored), delay, write MODE1 (restart and auto-increment), in that
order, from the byte `b` read first, and completes with OK. -/
def Obligations.SetfreqRunsToOk : Prop :=
  ∀ (s : State) (w : CmdWord) (ws : List CmdWord) (f : BitVec 32) (fc : Frac)
    (y1 y2 y3 y4 y5 y6 : Reply) (is : List Input),
    s.Ready → decode w = .setfreq f → decodeFreq f = some fc → s.offers = w :: ws →
    s.inputs = .answer y1 :: .answer y2 :: .answer y3 :: .answer y4 :: .answer y5 :: .answer y6 :: is →
    y1.error = none → y2.error = none → y3.error = none → y4.error = none → y6.error = none →
    ∃ d n, run 7 s = .next { s with
      offers := ws
      inputs := is
      lat := { s.lat with oldMode := y1.byte, pre := computePrescale s.cfg fc }
      res := { status := .ok, detail := d }
      trace := [⟨.rd1 (dev8 s.cfg) s.cfg.mode1Addr, .okByte y1.byte⟩,
        ⟨.wr1 (dev8 s.cfg) s.cfg.mode1Addr
          ((y1.byte &&& ~~~ s.cfg.restartMask) ||| s.cfg.sleepMask), .ok⟩,
        ⟨.wr1 (dev8 s.cfg) s.cfg.prescaleAddr (computePrescale s.cfg fc), .ok⟩,
        ⟨.wr1 (dev8 s.cfg) s.cfg.mode1Addr y1.byte, .ok⟩,
        ⟨.delay (s.cfg.oscSettleMs.setWidth 32), .done⟩,
        ⟨.wr1 (dev8 s.cfg) s.cfg.mode1Addr
          (y1.byte ||| s.cfg.restartMask ||| s.cfg.aiMask), .ok⟩]
      draws := n }

/-- R160: a SETFREQ whose read or one of whose writes fails, after `k` transactions that succeeded, has issued
exactly the first `k + 1` requests of its line, completes with BUS_ERROR(e), and issues nothing further. -/
def Obligations.SetfreqShortCircuits : Prop :=
  ∀ (s : State) (w : CmdWord) (ws : List CmdWord) (f : BitVec 32) (fc : Frac)
    (ys : List Reply) (y : Reply) (e : TransportError) (is : List Input),
    s.Ready → decode w = .setfreq f → decodeFreq f = some fc → s.offers = w :: ws →
    s.inputs = ys.map Input.answer ++ .answer y :: is →
    ys.length ∈ [0, 1, 2, 3, 5] → (∀ x ∈ ys, x.error = none) → y.error = some e →
    ∃ t, run (ys.length + 2) s = .next t ∧ t.st = .idle ∧ t.request = none ∧
      t.inputs = is ∧ t.res = { status := .busError, detail := e } ∧
      t.trace.map Txn.request =
        (setfreqRequests s.cfg (((ys ++ [y]).map Reply.byte).headD 0) (computePrescale s.cfg fc)).take
          (ys.length + 1)

/-- R178, R179, R180, R182, R196: SETPWM and SETTHR of a channel up to 15 whose writes are answered `Ok` send the
four bytes of their two counts to the four registers of the channel, low byte first, ON before OFF, in four
writes or in one burst as CFG.BURST says, and complete with OK. -/
def Obligations.ChannelCommandsRunToOk : Prop :=
  ∀ (s : State) (w : CmdWord) (ws : List CmdWord) (ch : BitVec 8) (on off : Nat)
    (ys : List Reply) (is : List Input),
    s.Ready → channelCounts s.cfg (decode w) = some (ch, on, off) → ch.toNat ≤ 15 → s.offers = w :: ws →
    s.inputs = ys.map Input.answer ++ is → ys.length = (if s.cfg.burst then 1 else 4) →
    (∀ x ∈ ys, x.error = none) →
    ∃ t, run (ys.length + 1) s = .next t ∧ t.st = .idle ∧ t.res.status = .ok ∧
      t.cfg = s.cfg ∧ t.offers = ws ∧ t.inputs = is ∧
      (∀ x ∈ t.trace, x.answer = .ok) ∧
      t.trace.length = (if s.cfg.burst then 1 else 4) ∧
      (t.trace.flatMap fun x => x.request.writes).map (fun p => (p.1.toNat, p.2.toNat)) =
        [(s.cfg.led0OnLAddr.toNat + 4 * ch.toNat, on % 256),
         (s.cfg.led0OnLAddr.toNat + 4 * ch.toNat + 1, on / 256),
         (s.cfg.led0OnLAddr.toNat + 4 * ch.toNat + 2, off % 256),
         (s.cfg.led0OnLAddr.toNat + 4 * ch.toNat + 3, off / 256)]

/-- R181: a single-write channel write whose byte `k` fails has sent bytes 0 to k and never the later ones, and
completes with BUS_ERROR(e); for SETPWM and SETTHR alike, from the latched counts. -/
def Obligations.ChannelWriteShortCircuits : Prop :=
  ∀ (s : State) (ys : List Reply) (y : Reply) (e : TransportError) (is : List Input),
    s.cfg.wf = true → s.cfg.burst = false → s.st = .pB0 → s.trace = [] →
    s.inputs = ys.map Input.answer ++ .answer y :: is → ys.length < 4 →
    (∀ x ∈ ys, x.error = none) → y.error = some e →
    ∃ t, run (ys.length + 1) s = .next t ∧ t.st = .idle ∧ t.request = none ∧
      t.lat = s.lat ∧ t.res = { status := .busError, detail := e } ∧
      t.trace.map Txn.request =
        (channelRequests s.cfg s.lat.ch s.lat.on s.lat.off).take (ys.length + 1)

/-- R41, R264: whatever the transport answers, a running command is over after at most six answers. -/
def Obligations.EveryCommandEndsWithinSixAnswers : Prop :=
  ∀ (s : State) (ys : List Reply) (is : List Input),
    s.Busy → s.inputs = ys.map Input.answer ++ is → 6 ≤ ys.length →
    ∃ k t, k ≤ 6 ∧ run k s = .next t ∧ t.st = .idle ∧
      t.inputs = (ys.drop k).map Input.answer ++ is

/-- R263, R264: the step that completes a running command with OK leaves a trace whose requests are the whole
line of that command: 2 transactions for RESET, 3 for INIT, 6 for SETFREQ, 4 or 1 for the channel commands,
with delays of RESET_DELAY_MS, RESET_DELAY_MS, OSC_SETTLE_MS and none, so at least 10, 10 and 5 ms. -/
def Obligations.TransactionCountsAndDurations : Prop :=
  ∀ s t : State, s.Inv → s.st ≠ .idle → step s = .next t → t.st = .idle →
    (∀ is, s.inputs ≠ .blockReset :: is) → t.res.status = .ok →
    ∃ ln, s.Running ln ∧ t.trace.map Txn.request = ln.requests s.cfg t.lat ∧
      match ln with
      | .reset => t.trace.length = 2 ∧ minDurationMs t.trace = s.cfg.resetDelayMs.toNat ∧
          10 ≤ minDurationMs t.trace
      | .init => t.trace.length = 3 ∧ minDurationMs t.trace = s.cfg.resetDelayMs.toNat ∧
          10 ≤ minDurationMs t.trace
      | .setfreq => t.trace.length = 6 ∧ minDurationMs t.trace = s.cfg.oscSettleMs.toNat ∧
          5 ≤ minDurationMs t.trace
      | .channel => t.trace.length = (if s.cfg.burst then 1 else 4) ∧ minDurationMs t.trace = 0

/-! ## The whole machine -/

/-- R64, R152, R212, R215, R36: every step keeps the invariant: a running command has issued exactly the first
requests of its line in order and every answered one succeeded; a completed command's trace is a line cut at
its first failure, and RES tells of that failure or of success; L.PRE is in bounds while SETFREQ runs. -/
def Obligations.StepKeepsInv : Prop :=
  ∀ s t : State, s.Inv → step s = .next t → t.Inv

/-- The invariant holds at reset. -/
def Obligations.ResetMeetsInv : Prop := State.reset.Inv

/-- R20: no step of any kind writes CFG. -/
def Obligations.CfgIsNeverWritten : Prop :=
  ∀ s t : State, step s = .next t → t.cfg = s.cfg

/-- R43: RES changes only in a step that leaves `st` in IDLE; so a running command leaves it as it was. -/
def Obligations.ResultIsWrittenOnlyOnReturnToIdle : Prop :=
  ∀ s t : State, step s = .next t → t.res ≠ s.res → t.st = .idle

/-- R56, R57: every register address PMC can put on the port is MODE1, PRESCALE or a channel byte
`LED0_ON_L_ADDR + 4 n + k`, without wrap; only MODE1 is ever read. -/
def Obligations.PmcAddressesOnlyItsRegisters : Prop :=
  ∀ (s : State) (r : Request), s.cfg.wf = true → s.request = some r →
    (∀ a ∈ r.regs, a = s.cfg.mode1Addr ∨ a = s.cfg.prescaleAddr ∨
      ∃ n k, n ≤ 15 ∧ k ≤ 3 ∧ a.toNat = s.cfg.led0OnLAddr.toNat + 4 * n + k) ∧
    (∀ d a, r = .rd1 d a → a = s.cfg.mode1Addr)

/-- R129, R130: every byte PMC writes to MODE1 is an output of the overlay, and outside RESET and INIT it keeps
every unrelated bit of the byte read. -/
def Obligations.Mode1WritesKeepUnrelatedBits : Prop :=
  ∀ (s : State) (d b : Byte), s.cfg.wf = true → s.request = some (.wr1 d s.cfg.mode1Addr b) →
    (∃ sel, b = overlay s.cfg sel s.lat.oldMode) ∧
    (s.st ≠ .rWr → b &&& s.cfg.unrelated = s.lat.oldMode &&& s.cfg.unrelated)

/-- R38: no latch is read before the running command has written it. Two states that differ at most in dead
latches, RES and the next free value step alike, and a command completing in both tells the host the
same. -/
def Obligations.DeadLatchesAreNeverRead : Prop :=
  ∀ s t : State, s.SameLive t →
    outcomesAgree (fun s' t' => s'.SameLive t' ∧
      (s.st ≠ .idle → s'.st = .idle → (∀ is, s.inputs ≠ .blockReset :: is) →
        sameResult s'.res t'.res)) (step s) (step t)

/-- The recorded trace is the model's own (log 13): what a step does to the rest does not depend on it. -/
def Obligations.TraceIsNeverRead : Prop :=
  ∀ (s : State) (tr : List Txn),
    outcomesAgree (fun s' t' => { s' with trace := [] } = { t' with trace := [] })
      (step s) (step { s with trace := tr })

/-- R240, R241: at a block reset `st` becomes IDLE, CFG and what the outside holds stay, nothing is
outstanding, no command is recorded, and nothing is said of the latches and RES. That this holds under an
ill-formed CFG too is the model's choice (log 25). -/
def Obligations.BlockResetAbandonsTheCommand : Prop :=
  ∀ (s : State) (is : List Input), (s.st ≠ .idle ∨ s.offers = []) → s.inputs = .blockReset :: is →
    ∃ l r n, step s = .next { s with
      st := .idle, lat := l, res := r, inputs := is, trace := [], draws := n } ∧
    State.request { s with
      st := .idle, lat := l, res := r, inputs := is, trace := [], draws := n } = none

/-- R241: the answer to an abandoned request, arriving later, is ignored. That this holds under an ill-formed CFG
too is the model's choice (log 25). -/
def Obligations.LateAnswersAreIgnored : Prop :=
  ∀ (s : State) (y : Reply) (is : List Input), (s.st ≠ .idle ∨ s.offers = []) →
    s.inputs = .lateAnswer y :: is → step s = .next { s with inputs := is }

/-! ## The overlay -/

/-- R126 to R129: the four selects, as formulas and position by position. -/
def Obligations.OverlaySelects : Prop :=
  ∀ (c : Cfg) (m : Byte), c.wf1 = true →
    overlay c .sleep m = (m &&& ~~~ c.restartMask) ||| c.sleepMask ∧
    overlay c .sleep m &&& c.restartMask = 0 ∧
    overlay c .sleep m &&& c.sleepMask = c.sleepMask ∧
    overlay c .sleep m &&& c.aiMask = m &&& c.aiMask ∧
    overlay c .sleep m &&& c.unrelated = m &&& c.unrelated ∧
    overlay c .restore m = m ∧
    overlay c .restartAi m = m ||| c.restartMask ||| c.aiMask ∧
    overlay c .restartAi m &&& c.restartMask = c.restartMask ∧
    overlay c .restartAi m &&& c.aiMask = c.aiMask ∧
    overlay c .restartAi m &&& c.sleepMask = m &&& c.sleepMask ∧
    overlay c .restartAi m &&& c.unrelated = m &&& c.unrelated ∧
    overlay c .reset m = c.restartMask ∧
    overlay Cfg.default .sleep m = (m &&& 0x7F) ||| 0x10 ∧
    overlay Cfg.default .restartAi m = m ||| 0xA0 ∧
    overlay Cfg.default .reset m = 0x80 ∧
    overlay Cfg.default .sleep 0x21 = 0x31 ∧ overlay Cfg.default .restore 0x21 = 0x21 ∧
    overlay Cfg.default .restartAi 0x21 = 0xA1

/-! ## computePrescale -/

/-- R147: for every input the prescale byte is within its bounds. -/
def Obligations.PrescaleIsWithinBounds : Prop :=
  ∀ (c : Cfg) (fc : Frac), c.wf4 = true →
    c.prescaleMin.toNat ≤ (computePrescale c fc).toNat ∧
    (computePrescale c fc).toNat ≤ c.prescaleMax.toNat

/-- R148: a higher frequency never gives a larger prescale byte. -/
def Obligations.PrescaleIsNonIncreasing : Prop :=
  ∀ (c : Cfg) (p q : Frac), c.wf4 = true → 0 < p.num → 0 < p.den → 0 < q.num → 0 < q.den →
    fracToRat p ≤ fracToRat q → (computePrescale c q).toNat ≤ (computePrescale c p).toNat

/-- R90, R141 to R146: for every pattern the integer form agrees with the rational formula. A NaN is rejected;
of anything else the frequency is the pattern's real number clamped to [1, 3500] (the infinities to the
bounds), and the byte is that of `rhaz(OSC_HZ / (fc * 4096)) - 1` clamped to the bounds. -/
def Obligations.PrescaleIsTheRationalFormula : Prop :=
  ∀ (c : Cfg) (f : BitVec 32), c.wf = true →
    match decodeFreq f with
    | none => referenceFreq f = none
    | some fc => referenceFreq f = some (fracToRat fc) ∧ 1 ≤ fracToRat fc ∧ fracToRat fc ≤ 3500 ∧
        ((computePrescale c fc).toNat : ℤ) = referencePrescale c (fracToRat fc)

/-! ## The duty encoder -/

/-- R87: the clamp is saturation at 4095. -/
def Obligations.ClampTwelveSaturates : Prop :=
  ∀ x : BitVec 16, (clamp12 x).toNat = min x.toNat 4095

/-- R173, R175, R59: the two bytes of a count are its remainder and quotient by 256, the upper four bits of the
high byte are 0, and reading the bytes back gives the count. -/
def Obligations.CountBytesRoundTrip : Prop :=
  ∀ n : BitVec 12, (lowByte n).toNat = n.toNat % 256 ∧ (highByte n).toNat = n.toNat / 256 ∧
    highByte n &&& 0xF0 = 0 ∧ countOf (lowByte n) (highByte n) = n

/-- R57, R174: the 64 channel addresses are the plain sums, without wrap, and all different. -/
def Obligations.ChannelAddressesFitAndDiffer : Prop :=
  ∀ (c : Cfg) (m n : BitVec 4) (j k : Nat), c.wf2 = true → j ≤ 3 → k ≤ 3 →
    (channelReg c m j).toNat = c.led0OnLAddr.toNat + 4 * m.toNat + j ∧
    (channelReg c m j = channelReg c n k → m = n ∧ j = k)

/-! ## thrPulse -/

/-- R191 to R193: the pulse is the formula with the product first, the division truncated toward zero, and the
clamp to [PULSE_MIN, PULSE_MAX]; it fits 12 bits. -/
def Obligations.PulseIsTheRationalFormula : Prop :=
  ∀ (c : Cfg) (p : Int), c.wf5 = true → ((thrPulse c p).toNat : ℤ) = referencePulse c p ∧
    c.pulseMin.toNat ≤ (thrPulse c p).toNat ∧ (thrPulse c p).toNat ≤ c.pulseMax.toNat

/-- R199: throttle 0 gives the neutral pulse; -100 and 100 give the minimum and the maximum exactly under the
conditions the rule states, and both together exactly under WF6. -/
def Obligations.ThrottleEndPoints : Prop :=
  ∀ c : Cfg, c.wf5 = true → thrPulse c 0 = c.pulseNeutral ∧
    (thrPulse c 100 = c.pulseMax ↔
      c.pulseMax.toNat ≤ c.pulseNeutral.toNat + (c.pulseMax.toNat - c.pulseMin.toNat) / 2) ∧
    (thrPulse c (-100) = c.pulseMin ↔
      (c.pulseNeutral.toNat : ℤ) - ((c.pulseMax.toNat - c.pulseMin.toNat) / 2 : ℕ) ≤
        c.pulseMin.toNat) ∧
    ((thrPulse c (-100) = c.pulseMin ∧ thrPulse c 100 = c.pulseMax) ↔ c.wf6 = true)

/-- R198: the pulse width is non-decreasing in the throttle. -/
def Obligations.PulseIsNonDecreasing : Prop :=
  ∀ (c : Cfg) (p q : Int), c.wf5 = true → p ≤ q → (thrPulse c p).toNat ≤ (thrPulse c q).toNat

/-! ## With the reference environment E_ref (95_test_vectors.md section 3.0) -/

/-- One transaction leaves every byte of E_ref as it was but those the outstanding request writes; with none
outstanding no byte changes; the list stays canonical. -/
def Obligations.TransactionWritesOnlyItsBytes : Prop :=
  ∀ b b' : Bench, b.env.reg.wf → b.step = .next b' → b'.env.reg.wf ∧
    ∀ a : Nat, (∀ r, b.pmc.request = some r → ∀ p ∈ r.writes, p.1.toNat ≠ a) →
      b'.env.reg.read a = b.env.reg.read a

/-- R59, R71: in E_ref (log 16) the burst puts the same bytes at the same addresses as the four single writes. -/
def Obligations.BurstStoresAsFourSingleWrites : Prop :=
  ∀ (c : Cfg) (m : Memory) (d : Byte) (ch : BitVec 4) (b0 b1 b2 b3 : Byte), c.wf2 = true →
    m.store (.wrn d (channelReg c ch 0) b0 b1 b2 b3) =
      (((m.store (.wr1 d (channelReg c ch 0) b0)).store (.wr1 d (channelReg c ch 1) b1)).store
        (.wr1 d (channelReg c ch 2) b2)).store (.wr1 d (channelReg c ch 3) b3)

/-- R59, R180, R196, S2, S7: SETPWM and SETTHR of a channel up to 15 in E_ref, no transaction failing, in either
form: the four registers of the channel hold the bytes from which the two counts read back, every other
register is as it was, and the status is OK. -/
def Obligations.ChannelCommandsInEref : Prop :=
  ∀ (b : Bench) (w : CmdWord) (ws : List CmdWord) (ch : BitVec 8) (on off : Nat),
    b.pmc.Ready → b.env.reg.wf → b.env.fail = [] →
    channelCounts b.pmc.cfg (decode w) = some (ch, on, off) →
    ch.toNat ≤ 15 → b.pmc.offers = w :: ws →
    ∃ t, Bench.run (if b.pmc.cfg.burst then 2 else 5) b = .next t ∧ t.pmc.st = .idle ∧
      t.pmc.res.status = .ok ∧
      (countOf (t.env.reg.read (b.pmc.cfg.led0OnLAddr.toNat + 4 * ch.toNat))
        (t.env.reg.read (b.pmc.cfg.led0OnLAddr.toNat + 4 * ch.toNat + 1))).toNat = on ∧
      (countOf (t.env.reg.read (b.pmc.cfg.led0OnLAddr.toNat + 4 * ch.toNat + 2))
        (t.env.reg.read (b.pmc.cfg.led0OnLAddr.toNat + 4 * ch.toNat + 3))).toNat = off ∧
      ∀ a, (a < b.pmc.cfg.led0OnLAddr.toNat + 4 * ch.toNat ∨
          b.pmc.cfg.led0OnLAddr.toNat + 4 * ch.toNat + 3 < a) →
        t.env.reg.read a = b.env.reg.read a

/-- R151, R128, S3: SETFREQ in E_ref, no transaction failing: MODE1 ends as the byte it held with RESTART and
AUTO-INCREMENT set, PRESCALE holds the computed byte, every other register is as it was, the status is
OK. -/
def Obligations.SetfreqInEref : Prop :=
  ∀ (b : Bench) (w : CmdWord) (ws : List CmdWord) (f : BitVec 32) (fc : Frac),
    b.pmc.Ready → b.env.reg.wf → b.env.fail = [] → decode w = .setfreq f →
    decodeFreq f = some fc → b.pmc.offers = w :: ws →
    ∃ t, Bench.run 7 b = .next t ∧ t.pmc.st = .idle ∧ t.pmc.res.status = .ok ∧
      t.env.reg.read b.pmc.cfg.mode1Addr.toNat =
        b.env.reg.read b.pmc.cfg.mode1Addr.toNat ||| b.pmc.cfg.restartMask ||| b.pmc.cfg.aiMask ∧
      t.env.reg.read b.pmc.cfg.prescaleAddr.toNat = computePrescale b.pmc.cfg fc ∧
      ∀ a, a ≠ b.pmc.cfg.mode1Addr.toNat → a ≠ b.pmc.cfg.prescaleAddr.toNat →
        t.env.reg.read a = b.env.reg.read a

/-- R110, R111, R114: RESET, and INIT of a present device, in E_ref, no transaction failing: MODE1 holds the
literal RESTART_MASK, every other register is as it was, the status is OK. -/
def Obligations.ResetAndInitInEref : Prop :=
  ∀ (b : Bench) (w : CmdWord) (ws : List CmdWord),
    b.pmc.Ready → b.env.reg.wf → b.env.fail = [] → b.pmc.offers = w :: ws →
    (decode w = .reset ∨ (decode w = .init ∧ b.env.present = true)) →
    ∃ t, Bench.run (if decode w = .reset then 3 else 4) b = .next t ∧ t.pmc.st = .idle ∧
      t.pmc.res.status = .ok ∧
      t.env.reg.read b.pmc.cfg.mode1Addr.toNat = b.pmc.cfg.restartMask ∧
      ∀ a, a ≠ b.pmc.cfg.mode1Addr.toNat → t.env.reg.read a = b.env.reg.read a

/-! ## Reset -/

/-- R49, R240: what the spec gives the state after a block reset: IDLE, `cmd_ready` high, no request
outstanding, CFG well formed as constructed. -/
def Obligations.ResetStateIsIdleAndReady : Prop :=
  State.reset.st = .idle ∧ State.reset.st.code = 0 ∧ State.reset.cmdReady = true ∧
    State.reset.busy = false ∧ State.reset.request = none ∧ State.reset.cfg.wf = true

/-- R40, R43, R102: the fifteen codes of `st` by value, so 15 is none of them; the four status codes; the result
word carries the status code and the detail, and `success` is the status OK. -/
def Obligations.StateAndStatusCodes : Prop :=
  FsmState.idle.code = 0 ∧ FsmState.iProbe.code = 1 ∧ FsmState.rWr.code = 2 ∧ FsmState.rDly.code = 3 ∧
  FsmState.fRd.code = 4 ∧ FsmState.fSleep.code = 5 ∧ FsmState.fPre.code = 6 ∧ FsmState.fWake.code = 7 ∧
  FsmState.fDly.code = 8 ∧ FsmState.fRestart.code = 9 ∧ FsmState.pB0.code = 10 ∧
  FsmState.pB1.code = 11 ∧ FsmState.pB2.code = 12 ∧ FsmState.pB3.code = 13 ∧
  FsmState.pBurst.code = 14 ∧
  (∀ p q : FsmState, p.code = q.code → p = q) ∧ (∀ p : FsmState, p.code ≠ 15) ∧
  Status.ok.code = 0 ∧ Status.busError.code = 1 ∧ Status.deviceNotReady.code = 2 ∧
  Status.contractViolation.code = 3 ∧
  (∀ s : State, s.resultWord = (s.res.status.code, s.res.detail)) ∧
  ∀ s : State, s.success = true ↔ s.res.status = .ok

/-- R100, R21: the record of each kind of request by value, a field the kind does not use being absent; it loses
nothing of the request; and every request PMC issues but a delay carries DEV8, the 7-bit address with a 0
below it, and every delay fits 16 bits. -/
def Obligations.RequestRecordsAreFaithful : Prop :=
  (∀ d t, requestRecord (.probe d t) =
    { kind := 0, dev8 := some d, reg := none, len := none, data := [], arg := some t }) ∧
  (∀ d r, requestRecord (.rd1 d r) =
    { kind := 1, dev8 := some d, reg := some r, len := none, data := [], arg := none }) ∧
  (∀ d r b, requestRecord (.wr1 d r b) =
    { kind := 2, dev8 := some d, reg := some r, len := none, data := [b], arg := none }) ∧
  (∀ d r b0 b1 b2 b3, requestRecord (.wrn d r b0 b1 b2 b3) =
    { kind := 3, dev8 := some d, reg := some r, len := some 4, data := [b0, b1, b2, b3], arg := none }) ∧
  (∀ ms, requestRecord (.delay ms) =
    { kind := 4, dev8 := none, reg := none, len := none, data := [], arg := some ms }) ∧
  (∀ r q : Request, requestRecord r = requestRecord q → r = q) ∧
  ∀ (s : State) (r : Request), s.request = some r →
    ((∀ ms, r ≠ .delay ms) → (requestRecord r).dev8 = some (dev8 s.cfg)) ∧
    (∀ ms, r = .delay ms → ms.toNat < 2 ^ 16) ∧
    (dev8 s.cfg).toNat = 2 * s.cfg.devAddr7.toNat
end

