-- ==== Sys2Proof/Laws/State.lean ====
section
/-! SUPPORT. What each named update of the state does to each field. -/

namespace Sys2Proof.Machine

variable (s : State)

@[simp] theorem State.enter_cfg (n : FsmState) : (s.enter n).cfg = s.cfg := rfl
@[simp] theorem State.enter_st (n : FsmState) : (s.enter n).st = n := rfl
@[simp] theorem State.enter_lat (n : FsmState) : (s.enter n).lat = s.lat := rfl
@[simp] theorem State.enter_res (n : FsmState) : (s.enter n).res = s.res := rfl
@[simp] theorem State.enter_offers (n : FsmState) : (s.enter n).offers = s.offers := rfl
@[simp] theorem State.enter_inputs (n : FsmState) : (s.enter n).inputs = s.inputs := rfl
@[simp] theorem State.enter_trace (n : FsmState) : (s.enter n).trace = s.trace := rfl
@[simp] theorem State.enter_draws (n : FsmState) : (s.enter n).draws = s.draws := rfl

@[simp] theorem State.latchOldMode_cfg (b : Byte) : (s.latchOldMode b).cfg = s.cfg := rfl
@[simp] theorem State.latchOldMode_st (b : Byte) : (s.latchOldMode b).st = s.st := rfl
@[simp] theorem State.latchOldMode_lat (b : Byte) : (s.latchOldMode b).lat = { s.lat with oldMode := b } := rfl
@[simp] theorem State.latchOldMode_res (b : Byte) : (s.latchOldMode b).res = s.res := rfl
@[simp] theorem State.latchOldMode_offers (b : Byte) : (s.latchOldMode b).offers = s.offers := rfl
@[simp] theorem State.latchOldMode_inputs (b : Byte) : (s.latchOldMode b).inputs = s.inputs := rfl
@[simp] theorem State.latchOldMode_trace (b : Byte) : (s.latchOldMode b).trace = s.trace := rfl
@[simp] theorem State.latchOldMode_draws (b : Byte) : (s.latchOldMode b).draws = s.draws := rfl

@[simp] theorem State.latchPre_cfg (b : Byte) : (s.latchPre b).cfg = s.cfg := rfl
@[simp] theorem State.latchPre_st (b : Byte) : (s.latchPre b).st = s.st := rfl
@[simp] theorem State.latchPre_lat (b : Byte) : (s.latchPre b).lat = { s.lat with pre := b } := rfl
@[simp] theorem State.latchPre_res (b : Byte) : (s.latchPre b).res = s.res := rfl
@[simp] theorem State.latchPre_offers (b : Byte) : (s.latchPre b).offers = s.offers := rfl
@[simp] theorem State.latchPre_inputs (b : Byte) : (s.latchPre b).inputs = s.inputs := rfl
@[simp] theorem State.latchPre_trace (b : Byte) : (s.latchPre b).trace = s.trace := rfl
@[simp] theorem State.latchPre_draws (b : Byte) : (s.latchPre b).draws = s.draws := rfl

@[simp] theorem State.latchChannel_cfg (ch : BitVec 4) (on off : BitVec 12) : (s.latchChannel ch on off).cfg = s.cfg := rfl
@[simp] theorem State.latchChannel_st (ch : BitVec 4) (on off : BitVec 12) : (s.latchChannel ch on off).st = s.st := rfl
@[simp] theorem State.latchChannel_lat (ch : BitVec 4) (on off : BitVec 12) : (s.latchChannel ch on off).lat = { s.lat with ch := ch, on := on, off := off } := rfl
@[simp] theorem State.latchChannel_res (ch : BitVec 4) (on off : BitVec 12) : (s.latchChannel ch on off).res = s.res := rfl
@[simp] theorem State.latchChannel_offers (ch : BitVec 4) (on off : BitVec 12) : (s.latchChannel ch on off).offers = s.offers := rfl
@[simp] theorem State.latchChannel_inputs (ch : BitVec 4) (on off : BitVec 12) : (s.latchChannel ch on off).inputs = s.inputs := rfl
@[simp] theorem State.latchChannel_trace (ch : BitVec 4) (on off : BitVec 12) : (s.latchChannel ch on off).trace = s.trace := rfl
@[simp] theorem State.latchChannel_draws (ch : BitVec 4) (on off : BitVec 12) : (s.latchChannel ch on off).draws = s.draws := rfl

@[simp] theorem State.record_cfg (r : Request) (a : Answer) : (s.record r a).cfg = s.cfg := rfl
@[simp] theorem State.record_st (r : Request) (a : Answer) : (s.record r a).st = s.st := rfl
@[simp] theorem State.record_lat (r : Request) (a : Answer) : (s.record r a).lat = s.lat := rfl
@[simp] theorem State.record_res (r : Request) (a : Answer) : (s.record r a).res = s.res := rfl
@[simp] theorem State.record_offers (r : Request) (a : Answer) : (s.record r a).offers = s.offers := rfl
@[simp] theorem State.record_inputs (r : Request) (a : Answer) : (s.record r a).inputs = s.inputs := rfl
@[simp] theorem State.record_trace (r : Request) (a : Answer) : (s.record r a).trace = s.trace ++ [{ request := r, answer := a }] := rfl
@[simp] theorem State.record_draws (r : Request) (a : Answer) : (s.record r a).draws = s.draws := rfl

@[simp] theorem State.clearTrace_cfg : (s.clearTrace).cfg = s.cfg := rfl
@[simp] theorem State.clearTrace_st : (s.clearTrace).st = s.st := rfl
@[simp] theorem State.clearTrace_lat : (s.clearTrace).lat = s.lat := rfl
@[simp] theorem State.clearTrace_res : (s.clearTrace).res = s.res := rfl
@[simp] theorem State.clearTrace_offers : (s.clearTrace).offers = s.offers := rfl
@[simp] theorem State.clearTrace_inputs : (s.clearTrace).inputs = s.inputs := rfl
@[simp] theorem State.clearTrace_trace : (s.clearTrace).trace = [] := rfl
@[simp] theorem State.clearTrace_draws : (s.clearTrace).draws = s.draws := rfl

@[simp] theorem State.complete_some_cfg (k : Status) (e : TransportError) : (s.complete k (some e)).cfg = s.cfg := rfl
@[simp] theorem State.complete_some_st (k : Status) (e : TransportError) : (s.complete k (some e)).st = .idle := rfl
@[simp] theorem State.complete_some_lat (k : Status) (e : TransportError) : (s.complete k (some e)).lat = s.lat := rfl
@[simp] theorem State.complete_some_res (k : Status) (e : TransportError) : (s.complete k (some e)).res = { status := k, detail := e } := rfl
@[simp] theorem State.complete_some_offers (k : Status) (e : TransportError) : (s.complete k (some e)).offers = s.offers := rfl
@[simp] theorem State.complete_some_inputs (k : Status) (e : TransportError) : (s.complete k (some e)).inputs = s.inputs := rfl
@[simp] theorem State.complete_some_trace (k : Status) (e : TransportError) : (s.complete k (some e)).trace = s.trace := rfl
@[simp] theorem State.complete_some_draws (k : Status) (e : TransportError) : (s.complete k (some e)).draws = s.draws := rfl

@[simp] theorem State.complete_none_cfg (k : Status) : (s.complete k none).cfg = s.cfg := rfl
@[simp] theorem State.complete_none_st (k : Status) : (s.complete k none).st = .idle := rfl
@[simp] theorem State.complete_none_lat (k : Status) : (s.complete k none).lat = s.lat := rfl
@[simp] theorem State.complete_none_res (k : Status) : (s.complete k none).res = { status := k, detail := Config.freeDetail s.draws } := rfl
@[simp] theorem State.complete_none_offers (k : Status) : (s.complete k none).offers = s.offers := rfl
@[simp] theorem State.complete_none_inputs (k : Status) : (s.complete k none).inputs = s.inputs := rfl
@[simp] theorem State.complete_none_trace (k : Status) : (s.complete k none).trace = s.trace := rfl
@[simp] theorem State.complete_none_draws (k : Status) : (s.complete k none).draws = s.draws + 1 := rfl

/-! Facts of `complete` that do not depend on the detail. -/

@[simp] theorem State.complete_cfg (k : Status) (d : Option TransportError) :
    (s.complete k d).cfg = s.cfg := by cases d <;> rfl
@[simp] theorem State.complete_lat (k : Status) (d : Option TransportError) :
    (s.complete k d).lat = s.lat := by cases d <;> rfl
@[simp] theorem State.complete_offers (k : Status) (d : Option TransportError) :
    (s.complete k d).offers = s.offers := by cases d <;> rfl
@[simp] theorem State.complete_inputs (k : Status) (d : Option TransportError) :
    (s.complete k d).inputs = s.inputs := by cases d <;> rfl
@[simp] theorem State.complete_trace (k : Status) (d : Option TransportError) :
    (s.complete k d).trace = s.trace := by cases d <;> rfl
@[simp] theorem State.complete_st (k : Status) (d : Option TransportError) :
    (s.complete k d).st = .idle := by cases d <;> rfl
@[simp] theorem State.complete_status (k : Status) (d : Option TransportError) :
    (s.complete k d).res.status = k := by cases d <;> rfl

@[simp] theorem State.blockReset_cfg : s.blockReset.cfg = s.cfg := rfl
@[simp] theorem State.blockReset_st : s.blockReset.st = .idle := rfl
@[simp] theorem State.blockReset_offers : s.blockReset.offers = s.offers := rfl
@[simp] theorem State.blockReset_inputs : s.blockReset.inputs = s.inputs := rfl
@[simp] theorem State.blockReset_trace : s.blockReset.trace = [] := rfl
@[simp] theorem State.blockReset_draws : s.blockReset.draws = s.draws + 1 := rfl

theorem State.done_eq : s.done = s.complete .ok none := rfl
theorem State.raise_eq (k : Status) (d : Option TransportError) : s.raise k d = s.complete k d := rfl
theorem State.contractViolation_eq : s.contractViolation = s.complete .contractViolation none := rfl

/-! The ready and busy signals (R44). -/

theorem State.cmdReady_iff : s.cmdReady = true ↔ s.st = .idle := by simp [State.cmdReady]
theorem State.busy_iff : s.busy = true ↔ s.st ≠ .idle := by simp [State.busy]
theorem State.busy_eq_not_cmdReady : s.busy = !s.cmdReady := rfl

/-- No request is outstanding exactly in IDLE (R40). -/
theorem State.request_eq_none_iff : s.request = none ↔ s.st = .idle := by
  unfold State.request
  cases s.st <;> simp

/-- The outstanding request depends on CFG, `st` and the latches alone. -/
theorem State.request_congr {s t : State} (hc : s.cfg = t.cfg) (hs : s.st = t.st) (hl : s.lat = t.lat) :
    s.request = t.request := by
  simp only [State.request, hc, hs, hl]

end Sys2Proof.Machine
end

