-- ==== Sys2Proof/Laws/Ops.lean ====
section
/-! SUPPORT. One lemma for each shared operation that says all it can do; the inversion of a step. -/

namespace Sys2Proof.Machine

/-! ## accept -/

theorem accept_of_illFormed {s : State} {run : State → State} (h : s.cfg.wf = false) :
    accept s run = .refused .illFormedCfg := by simp [accept, h]

theorem accept_of_busy {s : State} {run : State → State} (h : s.cfg.wf = true) (hb : s.st ≠ .idle) :
    accept s run = .next s := by simp [accept, h, State.busy, hb]

theorem accept_of_ready {s : State} {run : State → State} (h : s.cfg.wf = true) (hi : s.st = .idle) :
    accept s run = .next (run s.clearTrace) := by simp [accept, h, State.busy, hi]

/-- All that accepting a command can answer with a next state. -/
theorem accept_next {s t : State} {run : State → State} (h : accept s run = .next t) :
    s.cfg.wf = true ∧ ((s.st ≠ .idle ∧ t = s) ∨ (s.st = .idle ∧ t = run s.clearTrace)) := by
  rcases hw : s.cfg.wf with _ | _
  · rw [accept_of_illFormed hw] at h; cases h
  · by_cases hi : s.st = .idle
    · rw [accept_of_ready hw hi] at h; cases h; exact ⟨rfl, .inr ⟨hi, rfl⟩⟩
    · rw [accept_of_busy hw hi] at h; cases h; exact ⟨rfl, .inl ⟨hi, rfl⟩⟩

/-! ## proceed and receive -/

theorem State.proceed_of_last {s : State} (h : nextOnSuccess s.st = .idle) : s.proceed = s.done := by
  simp only [State.proceed, h]

theorem State.proceed_of_more {s : State} (h : nextOnSuccess s.st ≠ .idle) :
    s.proceed = s.enter (nextOnSuccess s.st) := by
  unfold State.proceed
  generalize nextOnSuccess s.st = n at h ⊢
  cases n <;> first | rfl | exact absurd rfl h

/-- The two ways of a successful answer (R41). -/
theorem State.proceed_cases (s : State) :
    (nextOnSuccess s.st = .idle ∧ s.proceed = s.complete .ok none) ∨
    (nextOnSuccess s.st ≠ .idle ∧ s.proceed = s.enter (nextOnSuccess s.st)) := by
  by_cases h : nextOnSuccess s.st = .idle
  · exact .inl ⟨h, State.proceed_of_last h⟩
  · exact .inr ⟨h, State.proceed_of_more h⟩

@[simp] theorem State.receive_err (s : State) (e : TransportError) :
    s.receive (.err e) = s.complete .busError (some e) := rfl
@[simp] theorem State.receive_absent (s : State) :
    s.receive (.present false) = s.complete .deviceNotReady none := rfl
@[simp] theorem State.receive_present (s : State) : s.receive (.present true) = s.proceed := rfl
@[simp] theorem State.receive_okByte (s : State) (b : Byte) :
    s.receive (.okByte b) = (s.latchOldMode b).proceed := rfl
@[simp] theorem State.receive_ok (s : State) : s.receive .ok = s.proceed := rfl
@[simp] theorem State.receive_done (s : State) : s.receive .done = s.proceed := rfl

/-! ## respond -/

theorem respond_of_request {s : State} {r : Request} (y : Reply) (hw : s.cfg.wf = true)
    (hr : s.request = some r) :
    respond s y = .next ((s.record r (answerOf r y)).receive (answerOf r y)) := by
  simp [respond, hw, hr]

/-- All that an answer can do with a next state: it goes to the outstanding request. -/
theorem respond_next {s t : State} {y : Reply} (h : respond s y = .next t) :
    s.cfg.wf = true ∧ ∃ r, s.request = some r ∧
      t = (s.record r (answerOf r y)).receive (answerOf r y) := by
  unfold respond at h
  split at h
  · next hw =>
    split at h
    · cases h
    · next r hr => exact ⟨hw, r, hr, by simpa using h.symm⟩
  · cases h

/-! ## step -/

/-- In IDLE with a word held, the step is the command's (R44). -/
theorem step_of_offer {s : State} {w : CmdWord} {ws : List CmdWord} (hi : s.st = .idle)
    (ho : s.offers = w :: ws) : step s = exec (decode w) { s with offers := ws } := by
  simp [step, State.cmdReady, hi, ho]

/-- While busy, the step takes the next event outside. -/
theorem step_of_busy {s : State} {i : Input} {is : List Input} (hb : s.st ≠ .idle)
    (hin : s.inputs = i :: is) : step s = takeInput { s with inputs := is } i := by
  simp [step, State.cmdReady, hb, hin]

/-- In IDLE with no word held, the step takes the next event outside. -/
theorem step_of_noOffer {s : State} {i : Input} {is : List Input} (ho : s.offers = [])
    (hin : s.inputs = i :: is) : step s = takeInput { s with inputs := is } i := by
  simp [step, ho, hin]

/-- Nothing outside and nothing to accept: PMC waits (R50, U2). -/
theorem step_of_nothing {s : State} (h : s.st ≠ .idle ∨ s.offers = []) (hin : s.inputs = []) :
    step s = .next s := by
  rcases h with h | h
  · simp [step, State.cmdReady, h, hin]
  · simp [step, h, hin]

/-- All that a step can do: accept the held command, take an event, or wait. -/
theorem step_cases (s : State) :
    (∃ w ws, s.st = .idle ∧ s.offers = w :: ws ∧ step s = exec (decode w) { s with offers := ws }) ∨
    (∃ i is, (s.st ≠ .idle ∨ s.offers = []) ∧ s.inputs = i :: is ∧
      step s = takeInput { s with inputs := is } i) ∨
    ((s.st ≠ .idle ∨ s.offers = []) ∧ s.inputs = [] ∧ step s = .next s) := by
  by_cases hc : s.st ≠ .idle ∨ s.offers = []
  · rcases hin : s.inputs with _ | ⟨i, is⟩
    · exact .inr (.inr ⟨hc, rfl, step_of_nothing hc hin⟩)
    · refine .inr (.inl ⟨i, is, hc, rfl, ?_⟩)
      rcases hc with h | h
      · exact step_of_busy h hin
      · exact step_of_noOffer h hin
  · push Not at hc
    obtain ⟨w, ws, hws⟩ := List.exists_cons_of_ne_nil hc.2
    exact .inl ⟨w, ws, hc.1, hws, step_of_offer hc.1 hws⟩

/-- Inversion of a step that answers a next state, down to the operations. -/
theorem step_next {s t : State} (h : step s = .next t) :
    (∃ w ws, s.st = .idle ∧ s.offers = w :: ws ∧
      exec (decode w) { s with offers := ws } = .next t) ∨
    (∃ w is, s.inputs = .offer w :: is ∧ t = { s with inputs := is, offers := s.offers ++ [w] }) ∨
    (∃ y is, (s.st ≠ .idle ∨ s.offers = []) ∧ s.inputs = .answer y :: is ∧
      respond { s with inputs := is } y = .next t) ∨
    (∃ y is, s.inputs = .lateAnswer y :: is ∧ t = { s with inputs := is }) ∨
    (∃ is, s.inputs = .blockReset :: is ∧ t = State.blockReset { s with inputs := is }) ∨
    (s.inputs = [] ∧ t = s) := by
  rcases step_cases s with ⟨w, ws, hi, ho, he⟩ | ⟨i, is, hc, hin, he⟩ | ⟨-, hin, he⟩
  · exact .inl ⟨w, ws, hi, ho, he ▸ h⟩
  · rw [he] at h
    cases i with
    | offer w => cases h; exact .inr (.inl ⟨w, is, hin, rfl⟩)
    | answer y => exact .inr (.inr (.inl ⟨y, is, hc, hin, h⟩))
    | lateAnswer y => cases h; exact .inr (.inr (.inr (.inl ⟨y, is, hin, rfl⟩)))
    | blockReset => cases h; exact .inr (.inr (.inr (.inr (.inl ⟨is, hin, rfl⟩))))
  · rw [he] at h; cases h; exact .inr (.inr (.inr (.inr (.inr ⟨hin, rfl⟩))))

end Sys2Proof.Machine
end

