-- ==== Sys2Proof/Laws/Exec.lean ====
section
/-! SUPPORT. Every meaning as `accept` of what the command does in IDLE. -/

namespace Sys2Proof.Machine

variable (s : State)

theorem exec_reset : exec .reset s = accept s (fun s => s.enter .rWr) := rfl

theorem exec_init : exec .init s = accept s (fun s => s.enter .iProbe) := rfl

theorem exec_setfreq (f : BitVec 32) : exec (.setfreq f) s = accept s (fun s =>
    match decodeFreq f with
    | none => s.contractViolation
    | some fc => (s.latchPre (computePrescale s.cfg fc)).enter .fRd) := rfl

theorem exec_setpwm (ch : BitVec 8) (on off : BitVec 16) : exec (.setpwm ch on off) s = accept s (fun s =>
    if chanOK ch then s.startChannelWrite (latchedChannel ch) (clamp12 on) (clamp12 off)
    else s.contractViolation) := rfl

theorem exec_setthr (ch : BitVec 8) (pct : BitVec 16) : exec (.setthr ch pct) s = accept s (fun s =>
    if chanOK ch then s.startChannelWrite (latchedChannel ch) thrOn (thrPulse s.cfg (throttleOf pct))
    else s.contractViolation) := rfl

theorem exec_illegal0 : exec .illegal0 s = accept s State.contractViolation := rfl

theorem exec_illegal6 : exec .illegal6 s = accept s State.contractViolation := rfl

theorem exec_illegal7 : exec .illegal7 s = accept s State.contractViolation := rfl

theorem exec_illegal8 : exec .illegal8 s = accept s State.contractViolation := rfl

theorem exec_illegal9 : exec .illegal9 s = accept s State.contractViolation := rfl

theorem exec_illegalA : exec .illegalA s = accept s State.contractViolation := rfl

theorem exec_illegalB : exec .illegalB s = accept s State.contractViolation := rfl

theorem exec_illegalC : exec .illegalC s = accept s State.contractViolation := rfl

theorem exec_illegalD : exec .illegalD s = accept s State.contractViolation := rfl

theorem exec_illegalE : exec .illegalE s = accept s State.contractViolation := rfl

theorem exec_illegalF : exec .illegalF s = accept s State.contractViolation := rfl

/-- Every command is accepted or not in the one way of `accept`. -/
theorem exec_eq_accept (i : Instr) : ∃ run : State → State, ∀ s, exec i s = accept s run := by
  cases i with
  | reset => exact ⟨_, exec_reset⟩
  | init => exact ⟨_, exec_init⟩
  | setfreq f => exact ⟨_, fun s => exec_setfreq s f⟩
  | setpwm ch on off => exact ⟨_, fun s => exec_setpwm s ch on off⟩
  | setthr ch pct => exact ⟨_, fun s => exec_setthr s ch pct⟩
  | illegal0 => exact ⟨_, exec_illegal0⟩
  | illegal6 => exact ⟨_, exec_illegal6⟩
  | illegal7 => exact ⟨_, exec_illegal7⟩
  | illegal8 => exact ⟨_, exec_illegal8⟩
  | illegal9 => exact ⟨_, exec_illegal9⟩
  | illegalA => exact ⟨_, exec_illegalA⟩
  | illegalB => exact ⟨_, exec_illegalB⟩
  | illegalC => exact ⟨_, exec_illegalC⟩
  | illegalD => exact ⟨_, exec_illegalD⟩
  | illegalE => exact ⟨_, exec_illegalE⟩
  | illegalF => exact ⟨_, exec_illegalF⟩

/-- A frequency pattern is rejected exactly when it is a NaN (R90). -/
theorem decodeFreq_eq_none_iff (f : BitVec 32) : decodeFreq f = none ↔ isNaN f = true := by
  unfold decodeFreq isNaN
  split_ifs with h1 h2 h3 <;> simp_all

/-- What `L.CH` takes is the channel's low four bits as a number (R88). -/
theorem latchedChannel_eq (ch : BitVec 8) : latchedChannel ch = BitVec.ofNat 4 ch.toNat := by
  apply BitVec.eq_of_toNat_eq
  simp [latchedChannel]

/-- The channel check as an inequality (R88). -/
theorem chanOK_iff (ch : BitVec 8) : chanOK ch = true ↔ ch.toNat ≤ 15 := by
  exact decide_eq_true_iff

/-! ## An answer leaves CFG, the ports and the recorded trace as they are -/

theorem State.proceed_ports (s : State) : s.proceed.cfg = s.cfg ∧ s.proceed.offers = s.offers ∧
    s.proceed.inputs = s.inputs ∧ s.proceed.trace = s.trace := by
  rcases s.proceed_cases with ⟨-, h⟩ | ⟨-, h⟩ <;> rw [h] <;> simp

@[simp] theorem State.proceed_cfg (s : State) : s.proceed.cfg = s.cfg := s.proceed_ports.1
@[simp] theorem State.proceed_offers (s : State) : s.proceed.offers = s.offers := s.proceed_ports.2.1
@[simp] theorem State.proceed_inputs (s : State) : s.proceed.inputs = s.inputs := s.proceed_ports.2.2.1
@[simp] theorem State.proceed_trace (s : State) : s.proceed.trace = s.trace := s.proceed_ports.2.2.2

theorem State.receive_ports (s : State) (a : Answer) : (s.receive a).cfg = s.cfg ∧
    (s.receive a).offers = s.offers ∧ (s.receive a).inputs = s.inputs ∧
    (s.receive a).trace = s.trace := by
  rcases a with (_ | _) | b | _ | e | _ <;> simp

@[simp] theorem State.receive_cfg (s : State) (a : Answer) : (s.receive a).cfg = s.cfg :=
  (s.receive_ports a).1
@[simp] theorem State.receive_offers (s : State) (a : Answer) : (s.receive a).offers = s.offers :=
  (s.receive_ports a).2.1
@[simp] theorem State.receive_inputs (s : State) (a : Answer) : (s.receive a).inputs = s.inputs :=
  (s.receive_ports a).2.2.1
@[simp] theorem State.receive_trace (s : State) (a : Answer) : (s.receive a).trace = s.trace :=
  (s.receive_ports a).2.2.2

/-- A busy step that takes an answer. -/
theorem step_of_answer {s : State} {r : Request} {y : Reply} {is : List Input} (hw : s.cfg.wf = true)
    (hr : s.request = some r) (hin : s.inputs = .answer y :: is) :
    step s = .next (State.receive (State.record { s with inputs := is } r (answerOf r y))
      (answerOf r y)) := by
  have hb : s.st ≠ .idle := fun h => by simp [(State.request_eq_none_iff s).2 h] at hr
  rw [step_of_busy hb hin]
  exact respond_of_request (s := { s with inputs := is }) y hw hr

end Sys2Proof.Machine
end

