-- ==== Sys2Proof/Laws/Memory.lean ====
section
/-! SUPPORT. The memory laws of the register contents: reading after writing, and that every operation keeps
the canonical form. -/

namespace Sys2Proof.Machine

@[simp] theorem Memory.read_nil (a : Nat) : Memory.read [] a = unlistedByte := rfl

theorem Memory.read_cons (b : Nat) (v : Byte) (m : Memory) (a : Nat) :
    Memory.read ((b, v) :: m) a = if b = a then v else Memory.read m a := rfl

/-- An address below every listed one reads as unlisted. -/
theorem Memory.read_of_lt {m : Memory} {a : Nat} (h : ∀ x ∈ m, a < x.1) :
    Memory.read m a = unlistedByte := by
  induction m with
  | nil => rfl
  | cons x m ih =>
    obtain ⟨b, v⟩ := x
    have hb : a < b := h (b, v) (by simp)
    rw [Memory.read_cons, if_neg (by omega)]
    exact ih fun y hy => h y (by simp [hy])

theorem Memory.wf_nil : Memory.wf [] := ⟨List.Pairwise.nil, by simp⟩

theorem Memory.wf_cons {b : Nat} {v : Byte} {m : Memory} :
    Memory.wf ((b, v) :: m) ↔ (∀ x ∈ m, b < x.1) ∧ b < 256 ∧ v ≠ unlistedByte ∧ Memory.wf m := by
  simp only [Memory.wf, List.pairwise_cons, List.mem_cons, forall_eq_or_imp]
  tauto

/-- A bound on the listed addresses survives a write at an address above it. -/
theorem Memory.lt_write {m : Memory} {c a : Nat} {v : Byte} (h : ∀ x ∈ m, c < x.1) (ha : c < a) :
    ∀ x ∈ m.write a v, c < x.1 := by
  induction m with
  | nil =>
    intro x hx
    unfold Memory.write at hx
    split at hx <;> simp_all
  | cons y m ih =>
    obtain ⟨b, u⟩ := y
    have hb : c < b := h (b, u) (by simp)
    have hm : ∀ x ∈ m, c < x.1 := fun x hx => h x (by simp [hx])
    intro x hx
    unfold Memory.write at hx
    split at hx
    · rcases List.mem_cons.mp hx with rfl | hx
      · exact hb
      · exact ih hm x hx
    · split at hx
      · split at hx
        · exact hm x hx
        · rcases List.mem_cons.mp hx with rfl | hx
          · exact ha
          · exact hm x hx
      · split at hx
        · exact h x hx
        · rcases List.mem_cons.mp hx with rfl | hx
          · exact ha
          · exact h x hx

/-- A write in the address space keeps the canonical form. -/
theorem Memory.wf_write {m : Memory} {a : Nat} {v : Byte} (h : m.wf) (ha : a < 256) :
    (m.write a v).wf := by
  induction m with
  | nil =>
    unfold Memory.write
    split
    · exact Memory.wf_nil
    · next hv => exact Memory.wf_cons.mpr ⟨by simp, ha, hv, Memory.wf_nil⟩
  | cons y m ih =>
    obtain ⟨b, u⟩ := y
    obtain ⟨hlt, hb, hu, hm⟩ := Memory.wf_cons.mp h
    unfold Memory.write
    split
    · next hba => exact Memory.wf_cons.mpr ⟨Memory.lt_write hlt hba, hb, hu, ih hm⟩
    · next hba =>
      split
      · next heq =>
        subst heq
        split
        · exact hm
        · next hv => exact Memory.wf_cons.mpr ⟨hlt, ha, hv, hm⟩
      · next hne =>
        split
        · exact h
        · next hv =>
          have hab : a < b := by omega
          refine Memory.wf_cons.mpr ⟨?_, ha, hv, h⟩
          intro x hx
          rcases List.mem_cons.mp hx with rfl | hx
          · exact hab
          · exact hab.trans (hlt x hx)

/-- Reading where one has just written. -/
theorem Memory.read_write_same {m : Memory} (h : m.wf) (a : Nat) (v : Byte) :
    (m.write a v).read a = v := by
  induction m with
  | nil =>
    unfold Memory.write
    split
    · next hv => simp [hv]
    · simp [Memory.read_cons]
  | cons y m ih =>
    obtain ⟨b, u⟩ := y
    obtain ⟨hlt, -, -, hm⟩ := Memory.wf_cons.mp h
    unfold Memory.write
    split
    · next hba => rw [Memory.read_cons, if_neg (by omega)]; exact ih hm
    · next hba =>
      split
      · next heq =>
        subst heq
        split
        · next hv => rw [hv]; exact Memory.read_of_lt hlt
        · simp [Memory.read_cons]
      · next hne =>
        have hab : a < b := by omega
        split
        · next hv =>
          rw [hv]
          apply Memory.read_of_lt
          intro x hx
          rcases List.mem_cons.mp hx with rfl | hx
          · exact hab
          · exact hab.trans (hlt x hx)
        · simp [Memory.read_cons]

/-- A write leaves every other address alone. -/
theorem Memory.read_write_other {m : Memory} (a : Nat) (v : Byte) {c : Nat} (hc : c ≠ a) :
    (m.write a v).read c = m.read c := by
  induction m with
  | nil =>
    unfold Memory.write
    split
    · rfl
    · simp [Memory.read_cons, Ne.symm hc]
  | cons y m ih =>
    obtain ⟨b, u⟩ := y
    unfold Memory.write
    split
    · simp only [Memory.read_cons, ih]
    · split
      · next heq =>
        subst heq
        split <;> simp [Memory.read_cons, Ne.symm hc]
      · split
        · rfl
        · simp [Memory.read_cons, Ne.symm hc]

/-- The stores of any request keep the canonical form. -/
theorem Memory.wf_store {m : Memory} (h : m.wf) (r : Request) : (m.store r).wf := by
  cases r with
  | probe _ _ => exact h
  | rd1 _ _ => exact h
  | wr1 _ a b => exact Memory.wf_write h a.isLt
  | wrn _ a b0 b1 b2 b3 =>
    exact Memory.wf_write (Memory.wf_write (Memory.wf_write (Memory.wf_write h
      (BitVec.isLt _)) (BitVec.isLt _)) (BitVec.isLt _)) (BitVec.isLt _)
  | delay _ => exact h

/-- The register file of E_ref keeps the canonical form over a transaction. -/
theorem Eref.wf_after {e : Eref} (h : e.reg.wf) (r : Request) : (e.after r).reg.wf := by
  unfold Eref.after
  split
  · exact h
  · exact Memory.wf_store h r

end Sys2Proof.Machine
end

