-- ==== Sys2Proof/Laws/PerInstr.lean ====
section
/-! SUPPORT. The family `EncodedOpcode`: the encoder puts a command's opcode in bits 47:44 and zeros in the
reserved bits and in every bit the command does not read (30_encoding.md R81, R92, R96). -/

namespace Sys2Proof.Laws.EncodedOpcode

/-- The opcode field is the command's, and no bit outside those the command reads is set. -/
def Statement (i : Instr) : Prop :=
  opField (encode i) = i.opcode ∧ encode i &&& Sys2Proof.Machine.usedMask i = encode i

/-- A word built from fields has its opcode in bits 47:44. -/
theorem opField_cmdWord (op : BitVec 4) (ch : BitVec 8) (a b : BitVec 16) :
    opField (cmdWord op ch a b) = op := by
  apply BitVec.eq_of_getLsbD_eq
  intro i hi
  simp only [opField, cmdWord, BitVec.getLsbD_extractLsb', BitVec.getLsbD_append]
  have h1 : ¬ 44 + i < 16 := by omega
  have h2 : ¬ 44 + i - 16 < 16 := by omega
  have h3 : ¬ 44 + i - 16 - 16 < 8 := by omega
  have h4 : ¬ 44 + i - 16 - 16 - 8 < 4 := by omega
  have h5 : 44 + i - 16 - 16 - 8 - 4 = i := by omega
  simp [h1, h2, h3, h4, h5, hi]

theorem and_ones8 (x : BitVec 8) : x &&& 0xFF#8 = x := BitVec.and_allOnes

theorem and_ones16 (x : BitVec 16) : x &&& 0xFFFF#16 = x := BitVec.and_allOnes

/-- Masking a word field by field. -/
theorem cmdWord_and (op p : BitVec 4) (ch k : BitVec 8) (a b m n : BitVec 16) :
    cmdWord op ch a b &&& (p ++ 0#4 ++ k ++ m ++ n) =
      cmdWord (op &&& p) (ch &&& k) (a &&& m) (b &&& n) := by
  apply BitVec.eq_of_getLsbD_eq
  intro i hi
  simp only [cmdWord, BitVec.getLsbD_and, BitVec.getLsbD_append]
  split_ifs <;> simp

theorem reset : Statement .reset := ⟨by decide, by decide⟩

theorem init : Statement .init := ⟨by decide, by decide⟩

theorem setfreq (f : BitVec 32) : Statement (.setfreq f) := by
  refine ⟨opField_cmdWord _ _ _ _, ?_⟩
  have hm : (0xF000FFFFFFFF : CmdWord) = 0xF#4 ++ 0#4 ++ 0x00#8 ++ 0xFFFF#16 ++ 0xFFFF#16 := by decide
  simp only [encode, Sys2Proof.Machine.usedMask, hm, cmdWord_and, and_ones16]
  congr 1

theorem setpwm (ch : BitVec 8) (on off : BitVec 16) : Statement (.setpwm ch on off) := by
  refine ⟨opField_cmdWord _ _ _ _, ?_⟩
  have hm : (0xF0FFFFFFFFFF : CmdWord) = 0xF#4 ++ 0#4 ++ 0xFF#8 ++ 0xFFFF#16 ++ 0xFFFF#16 := by decide
  simp only [encode, Sys2Proof.Machine.usedMask, hm, cmdWord_and, and_ones8, and_ones16]
  congr 1

theorem setthr (ch : BitVec 8) (pct : BitVec 16) : Statement (.setthr ch pct) := by
  refine ⟨opField_cmdWord _ _ _ _, ?_⟩
  have hm : (0xF0FF0000FFFF : CmdWord) = 0xF#4 ++ 0#4 ++ 0xFF#8 ++ 0x0000#16 ++ 0xFFFF#16 := by decide
  simp only [encode, Sys2Proof.Machine.usedMask, hm, cmdWord_and, and_ones8, and_ones16]
  congr 1

theorem illegal0 : Statement .illegal0 := ⟨by decide, by decide⟩

theorem illegal6 : Statement .illegal6 := ⟨by decide, by decide⟩

theorem illegal7 : Statement .illegal7 := ⟨by decide, by decide⟩

theorem illegal8 : Statement .illegal8 := ⟨by decide, by decide⟩

theorem illegal9 : Statement .illegal9 := ⟨by decide, by decide⟩

theorem illegalA : Statement .illegalA := ⟨by decide, by decide⟩

theorem illegalB : Statement .illegalB := ⟨by decide, by decide⟩

theorem illegalC : Statement .illegalC := ⟨by decide, by decide⟩

theorem illegalD : Statement .illegalD := ⟨by decide, by decide⟩

theorem illegalE : Statement .illegalE := ⟨by decide, by decide⟩

theorem illegalF : Statement .illegalF := ⟨by decide, by decide⟩

end Sys2Proof.Laws.EncodedOpcode
end

