-- ==== Sys2Proof/Laws/Run.lean ====
section
/-! SUPPORT. Runs: one step at a time, and that they are the host's. -/

namespace Sys2Proof.Machine

@[simp] theorem run_zero (s : State) : run 0 s = .next s := rfl

/-- A run whose first step answers a next state goes on from there. -/
theorem run_succ {k : Nat} {s t : State} (h : step s = .next t) : run (k + 1) s = run k t := by
  simp only [run, h]

/-- The host's run, one step at a time. -/
theorem core_run_succ (M : Host.Core) (k : Nat) (s : M.State) :
    M.run (k + 1) s = match M.step s with
      | .next t => M.run k t
      | .fault f => .fault f
      | .refused r => .refused r := by
  cases h : M.step s <;> simp [Host.Core.run, h]

/-- `run` is the host's run of `core`. -/
theorem run_eq_core_run (k : Nat) (s : State) : run k s = Host.Core.run core k s := by
  induction k generalizing s with
  | zero => exact Host.Core.run.eq_1 core s |>.symm
  | succ k ih =>
    refine Eq.trans ?_ (core_run_succ core k s).symm
    have hs : core.step s = step s := rfl
    unfold run
    rw [hs]
    cases step s with
    | next t => exact ih t
    | fault f => rfl
    | refused r => rfl

end Sys2Proof.Machine
end

