-- ==== Sys2Proof/Tests/Slice0.lean ====
section
/-! SUPPORT. Tests of the model (expected values from spec/95_test_vectors.md and the encodings of
spec/30_encoding.md), and, for every obligation with hypotheses, a state and operands that meet them all. -/

namespace Sys2Proof.Tests

open Sys2Proof Sys2Proof.Machine

/-! ## Well-formedness: one ill-formed CFG for each check, which the check refuses -/

theorem test_default_is_wellFormed : Cfg.default.wf = true ∧ Cfg.default.wf6 = true := by decide

/-- Two bits in a mask; two masks alike (R25). -/
theorem test_wf1_refuses : ({ Cfg.default with sleepMask := 0x11 } : Cfg).wf1 = false ∧
    ({ Cfg.default with aiMask := 0x80 } : Cfg).wf1 = false ∧
    ({ Cfg.default with restartMask := 0x00 } : Cfg).wf1 = false := by decide

/-- 192 is the last base whose window fits (R24). -/
theorem test_wf2_refuses : ({ Cfg.default with led0OnLAddr := 193 } : Cfg).wf2 = false ∧
    ({ Cfg.default with led0OnLAddr := 192 } : Cfg).wf2 = true := by decide

theorem test_wf3_refuses : ({ Cfg.default with oscHz := 0 } : Cfg).wf3 = false := by decide

theorem test_wf4_refuses : ({ Cfg.default with prescaleMin := 4, prescaleMax := 3 } : Cfg).wf4 = false := by
  decide

theorem test_wf5_refuses : ({ Cfg.default with pulseMin := 308 } : Cfg).wf5 = false ∧
    ({ Cfg.default with pulseMax := 306 } : Cfg).wf5 = false := by decide

/-- The constants 205, 307, 410 of section 2.4: WF5 holds, WF6 fails. -/
theorem test_wf6_refuses : ({ Cfg.default with pulseMin := 205 } : Cfg).wf6 = false ∧
    ({ Cfg.default with pulseMin := 205 } : Cfg).wf5 = true := by decide

theorem test_wf7_refuses : ({ Cfg.default with resetDelayMs := 9 } : Cfg).wf7 = false ∧
    ({ Cfg.default with oscSettleMs := 4 } : Cfg).wf7 = false := by decide

/-- MODE1 at the first and PRESCALE at the last address of the window; the two alike (R33). -/
theorem test_wf8_refuses : ({ Cfg.default with mode1Addr := 0x06 } : Cfg).wf8 = false ∧
    ({ Cfg.default with prescaleAddr := 0x45 } : Cfg).wf8 = false ∧
    ({ Cfg.default with mode1Addr := 0xFE } : Cfg).wf8 = false := by decide

/-! ## Decoding: every row by a word written out from its encoding (R81, R92, R93) -/

theorem test_decode_reset : decode 0x100000000000 = .reset ∧ decode 0x1FFFFFFFFFFF = .reset := by decide

theorem test_decode_init : decode 0x200000000000 = .init := by decide

theorem test_decode_setfreq : decode 0x300042480000 = .setfreq 0x42480000 ∧
    decode 0x30FF42480000 = .setfreq 0x42480000 := by decide

theorem test_decode_setpwm : decode 0x400300640800 = .setpwm 3 100 2048 ∧
    decode 0x4F0300640800 = .setpwm 3 100 2048 := by decide

theorem test_decode_setthr : decode 0x50020000FFCE = .setthr 2 0xFFCE ∧
    decode 0x5002ABCDFFCE = .setthr 2 0xFFCE := by decide

theorem test_decode_illegal : decode 0x000000000000 = .illegal0 ∧ decode 0x600000000000 = .illegal6 ∧
    decode 0x700000000000 = .illegal7 ∧ decode 0x800000000000 = .illegal8 ∧
    decode 0x900000000000 = .illegal9 ∧ decode 0xA00000000000 = .illegalA ∧
    decode 0xB00000000000 = .illegalB ∧ decode 0xC00000000000 = .illegalC ∧
    decode 0xD00000000000 = .illegalD ∧ decode 0xE00000000000 = .illegalE ∧
    decode 0xF00000000000 = .illegalF := by decide

/-- The encodings of R103, the other way. -/
theorem test_encode : encode .reset = 0x100000000000 ∧ encode (.setfreq 0x42480000) = 0x300042480000 ∧
    encode (.setpwm 3 100 2048) = 0x400300640800 ∧ encode (.setthr 2 0xFFCE) = 0x50020000FFCE := by decide

/-- What is no 48-bit word is rejected by name (R80). -/
theorem test_decodeBits_rejects : decodeBits 49 0 = .error .longerThanCommand ∧
    decodeBits 16 0x10000 = .error .bitsAboveLength ∧
    decodeTableWord 48 0x200000000000 = some .init := by decide

/-! ## The units, on the tables of 95_test_vectors.md -/

/-- Section 2.1, default masks. -/
theorem test_overlay_default :
    ([0x00, 0x01, 0x11, 0x20, 0x21, 0x4F, 0x80, 0x91, 0xA1, 0xFF].map (overlay Cfg.default .sleep)) =
      [0x10, 0x11, 0x11, 0x30, 0x31, 0x5F, 0x10, 0x11, 0x31, 0x7F] ∧
    ([0x00, 0x01, 0x11, 0x20, 0x21, 0x4F, 0x80, 0x91, 0xA1, 0xFF].map (overlay Cfg.default .restartAi)) =
      [0xA0, 0xA1, 0xB1, 0xA0, 0xA1, 0xEF, 0xA0, 0xB1, 0xA1, 0xFF] := by decide

/-- Section 2.1, the invented layout. -/
theorem test_overlay_otherMasks :
    ([.sleep, .restore, .restartAi, .reset].map fun sel =>
      overlay { Cfg.default with sleepMask := 0x01, restartMask := 0x02, aiMask := 0x04 } sel 0xFA) =
      [0xF9, 0xFA, 0xFE, 0x02] := by decide

/-- Section 2.2: the prescale byte of a pattern. -/
def prescaleOf (c : Cfg) (f : BitVec 32) : Option Byte := (decodeFreq f).map (computePrescale c)

/-- Section 2.2, ordinary rows, both ties (97.65625 and 488.28125 Hz), both clamps. -/
theorem test_prescale_table :
    ([0x3F800000, 0x41B80000, 0x41C00000, 0x42480000, 0x42C35000, 0x43F42400, 0x4498A000, 0x44DA0000,
      0x455AC000, 0xC0A00000].map (prescaleOf Cfg.default)) =
    [some 255, some 255, some 253, some 121, some 62, some 12, some 4, some 3, some 3, some 255] := by
  decide +kernel

/-- Section 2.2, special patterns: the infinities, minus zero, a subnormal, the neighbours of the bounds, NaNs. -/
theorem test_prescale_specials :
    ([0x7F800000, 0xFF800000, 0x80000000, 0x00000001, 0x3F7FFFFF, 0x455AC001, 0x7FC00000, 0x7F800001,
      0xFFFFFFFF].map (prescaleOf Cfg.default)) =
    [some 3, some 255, some 255, some 255, some 255, some 3, none, none, none] := by decide +kernel

/-- Section 2.2, `OSC_HZ = 27000000`. -/
theorem test_prescale_otherOscillator :
    prescaleOf { Cfg.default with oscHz := 27000000 } 0x42480000 = some 131 ∧
    prescaleOf { Cfg.default with oscHz := 27000000 } 0x447A0000 = some 6 := by decide +kernel

/-- Section 2.3: the four bytes of two counts. -/
def dutyBytes (on off : BitVec 16) : List Byte :=
  [lowByte (clamp12 on), highByte (clamp12 on), lowByte (clamp12 off), highByte (clamp12 off)]

/-- Section 2.3, the last rows show saturation. -/
theorem test_dutyBytes : dutyBytes 100 2048 = [0x64, 0x00, 0x00, 0x08] ∧
    dutyBytes 255 256 = [0xFF, 0x00, 0x00, 0x01] ∧ dutyBytes 4096 0 = [0xFF, 0x0F, 0x00, 0x00] ∧
    dutyBytes 0x0ABC 0x0123 = [0xBC, 0x0A, 0x23, 0x01] ∧
    dutyBytes 0x1ABC 0xF123 = [0xFF, 0x0F, 0xFF, 0x0F] := by decide

/-- Section 2.3, addresses. -/
theorem test_channelReg : channelReg Cfg.default 0 0 = 0x06 ∧ channelReg Cfg.default 3 1 = 0x13 ∧
    channelReg Cfg.default 15 3 = 0x45 := by decide

/-- Section 2.4, constants 204, 307, 410. -/
theorem test_thrPulse : ([-32768, -101, -100, -99, -51, -50, -2, -1, 0, 1, 50, 99, 100, 101].map
    (thrPulse Cfg.default)) =
    [204, 204, 204, 206, 255, 256, 305, 306, 307, 308, 358, 408, 410, 410] := by decide

/-- Section 2.4, constants 150, 375, 600, and 205, 307, 410. -/
theorem test_thrPulse_otherConstants : ([-100, -50, -1, 0, 1, 33, 50, 100].map
    (thrPulse { Cfg.default with pulseMin := 150, pulseNeutral := 375, pulseMax := 600 })) =
    [150, 263, 373, 375, 377, 449, 487, 600] ∧
    ([-100, -1, 0, 1, 100].map (thrPulse { Cfg.default with pulseMin := 205 })) =
    [205, 306, 307, 308, 409] := by decide

/-! ## Small states -/

/-- A draw that succeeds, with the byte 0x21. -/
def good : Reply := { present := true, byte := 0x21, error := none }

/-- A draw that fails with the error 7. -/
def bad : Reply := { present := false, byte := 0x21, error := some 7 }

/-- Latches whose contents are all different. -/
def someLatches : Latches := { oldMode := 0x21, pre := 121, ch := 3, on := 100, off := 2048 }

/-- The same live latches as `someLatches` from F_SLEEP on, the others not. -/
def otherLatches : Latches := { oldMode := 0x21, pre := 121, ch := 9, on := 1, off := 2 }

/-- IDLE, with what the outside holds. -/
def idleWith (offers : List CmdWord) (inputs : List Input) : State :=
  { State.reset with lat := someLatches, offers := offers, inputs := inputs }

/-- A running command. -/
def busyAt (st : FsmState) (inputs : List Input) : State :=
  { State.reset with st := st, lat := someLatches, inputs := inputs }

/-- The default CFG with the burst form. -/
def burstCfg : Cfg := { Cfg.default with burst := true }

/-- The next state, where there is one. -/
def next? : Host.Outcome State Fault Refusal → Option State
  | .next s => some s
  | .fault _ => none
  | .refused _ => none

theorem idle_ready (offers : List CmdWord) (inputs : List Input) : (idleWith offers inputs).Ready :=
  ⟨test_default_is_wellFormed.1, rfl⟩

theorem burst_ready (offers : List CmdWord) (inputs : List Input) :
    State.Ready { idleWith offers inputs with cfg := burstCfg } := by
  refine ⟨?_, rfl⟩
  show burstCfg.wf = true
  decide

/-! ## One step of each instruction -/

/-- The first request after acceptance (R110, R114, R151, R178): section 2.6. -/
theorem test_first_requests :
    (next? (exec .reset (idleWith [] []))).map State.request = some (some (.wr1 0x80 0x00 0x80)) ∧
    (next? (exec .init (idleWith [] []))).map State.request = some (some (.probe 0x80 0)) := by decide

theorem test_setfreq_latches : (next? (exec (.setfreq 0x42480000) (idleWith [] []))).map
    (fun t => (t.st, t.lat.pre, t.request)) = some (.fRd, 121, some (.rd1 0x80 0x00)) := by decide +kernel

theorem test_setfreq_nan : (next? (exec (.setfreq 0x7FC00000) (idleWith [] []))).map
    (fun t => (t.st, t.res.status, t.lat)) = some (.idle, .contractViolation, someLatches) := by decide

theorem test_setpwm_clamps : (next? (exec (.setpwm 15 5000 65535) (idleWith [] []))).map
    (fun t => (t.st, t.lat.ch, t.lat.on, t.lat.off)) = some (.pB0, 15, 4095, 4095) := by decide

theorem test_setpwm_channel16 : (next? (exec (.setpwm 16 0 0) (idleWith [] []))).map
    (fun t => (t.st, t.res.status, t.lat)) = some (.idle, .contractViolation, someLatches) := by decide

theorem test_setthr_latches : (next? (exec (.setthr 2 0xFFCE) (idleWith [] []))).map
    (fun t => (t.st, t.lat.ch, t.lat.on, t.lat.off)) = some (.pB0, 2, 0, 256) := by decide

theorem test_setthr_channel16 : (next? (exec (.setthr 16 100) (idleWith [] []))).map
    (fun t => (t.st, t.res.status, t.lat)) = some (.idle, .contractViolation, someLatches) := by decide

/-- The eleven illegal opcodes (R93, R94). -/
theorem test_illegal_opcodes :
    ([.illegal0, .illegal6, .illegal7, .illegal8, .illegal9, .illegalA, .illegalB, .illegalC, .illegalD,
      .illegalE, .illegalF].map fun i => (next? (exec i (idleWith [] []))).map
        fun t => (t.st, t.res.status, t.request)) =
    List.replicate 11 (some (.idle, .contractViolation, none)) := by decide

/-- The placed word is the first thing run after reset. -/
theorem test_placed_word : (next? (step (State.reset.withFetchWord 48 0x100000000000))).map State.st =
    some .rWr := by decide

/-- The byte read is latched, and the sleep variant of 0x21 is the next write (section 2.6). -/
theorem test_mode1_read : (next? (step (busyAt .fRd [.answer { good with byte := 0xA1 }]))).map
    (fun t => (t.lat.oldMode, t.request)) = some (0xA1, some (.wr1 0x80 0x00 0x31)) := by decide

/-- A failed write: BUS_ERROR with its error, in the same step (R206). -/
theorem test_bus_error : (next? (step (busyAt .fPre [.answer bad]))).map
    (fun t => (t.st, t.res, t.request)) = some (.idle, ⟨.busError, 7⟩, none) := by decide

/-- A block reset in the middle of SETFREQ (R240). -/
theorem test_block_reset : (next? (step (busyAt .fWake [.blockReset]))).map
    (fun t => (t.st, t.cfg, t.request)) = some (.idle, Cfg.default, none) := by decide

/-- The model's own two stops (log 9, log 11). -/
theorem test_stops : step (idleWith [] [.answer good]) = .fault .unsolicitedAnswer ∧
    exec .reset { idleWith [] [] with cfg := { Cfg.default with oscHz := 0 } } =
      .refused .illFormedCfg := by exact ⟨rfl, rfl⟩

/-! ## Witnesses: for each obligation with hypotheses, a case that meets them all -/

theorem witness_IgnoredBitsDoNotDecode :
    (0x1F551234ABCD : CmdWord) &&& usedMask (decode 0x1F551234ABCD) =
      0x100000000000 &&& usedMask (decode 0x1F551234ABCD) := by decide

theorem witness_StepRunsDecodedCommand : (idleWith [0x100000000000] []).st = .idle ∧
    (idleWith [0x100000000000] []).offers = [0x100000000000] := by decide

/-- Busy, and its step takes one more word from the host. -/
theorem witness_BusyTakesNoCommand : (busyAt .fRd [.offer 0x100000000000]).Busy ∧
    step (busyAt .fRd [.offer 0x100000000000]) =
      .next { busyAt .fRd [] with offers := [0x100000000000] } := ⟨⟨by decide, by decide⟩, rfl⟩

/-- Both clauses: busy, and idle with no command. -/
theorem witness_PmcWaitsWhenNothingHappens :
    ((busyAt .fRd []).st ≠ .idle ∧ (busyAt .fRd []).inputs = []) ∧
    ((idleWith [] []).offers = [] ∧ (idleWith [] []).inputs = []) := by decide

theorem witness_StepStopsOnlyOnUnsolicitedAnswer : (busyAt .fRd []).cfg.wf = true ∧
    (idleWith [] [.answer good]).cfg.wf = true := by decide

theorem witness_IllFormedCfgIsRefused :
    ({ idleWith [] [] with cfg := { Cfg.default with oscHz := 0 } } : State).cfg.wf = false := by decide

/-- For ResetIsAccepted and InitIsAccepted. -/
theorem witness_Ready : (idleWith [] []).Ready := idle_ready _ _

/-- The two patterns nearest a NaN: the infinity and an ordinary value. -/
theorem witness_SetfreqIsAccepted : (idleWith [] []).Ready ∧ isNaN 0x7F800000 = false ∧
    isNaN 0x42480000 = false := ⟨idle_ready _ _, by decide, by decide⟩

/-- For SetpwmIsAccepted and SetthrIsAccepted, both forms of the channel write, channel 15. -/
theorem witness_ChannelIsAccepted : (idleWith [] []).Ready ∧
    State.Ready { idleWith [] [] with cfg := burstCfg } ∧ (15 : BitVec 8).toNat ≤ 15 :=
  ⟨idle_ready _ _, burst_ready _ _, by decide⟩

theorem witness_IllegalOpcodeCompletesAtOnce : (idleWith [] []).Ready ∧ isIllegal .illegal0 = true ∧
    isIllegal .illegalF = true := ⟨idle_ready _ _, rfl, rfl⟩

/-- Both clauses, at channel 16 and channel 15. -/
theorem witness_ContractViolationsFailFast : (idleWith [] []).Ready ∧
    violatesContract (.setpwm 16 0 0) = true ∧ violatesContract (.setthr 16 0) = true ∧
    violatesContract (.setfreq 0x7FC00000) = true ∧ violatesContract (.setpwm 15 0 0) = false ∧
    violatesContract (.setthr 15 0) = false ∧ violatesContract (.setfreq 0x7F800000) = false :=
  ⟨idle_ready _ _, by decide, by decide, by decide, by decide, by decide, by decide⟩

/-- An accepted command, which is neither SETFREQ nor a channel command and no violation; and one that is. -/
theorem witness_AcceptanceFrame :
    exec .reset (idleWith [] []) = .next { idleWith [] [] with st := .rWr } ∧
    (∀ f, Instr.reset ≠ .setfreq f) ∧ (∀ ch on off, Instr.reset ≠ .setpwm ch on off) ∧
    (∀ ch p, Instr.reset ≠ .setthr ch p) ∧ violatesContract .reset = false ∧
    (∃ t, exec .illegal6 (idleWith [] []) = .next t) ∧ violatesContract .illegal6 = true :=
  ⟨rfl, by simp, by simp, by simp, rfl, ⟨_, rfl⟩, rfl⟩

/-- The first state of SETFREQ's line, and the last of the channel line. -/
theorem witness_SuccessAdvancesAlongTheLine :
    ((busyAt .fRd [.answer good]).Busy ∧ (Line.setfreq.states Cfg.default)[0]? = some .fRd ∧
      (busyAt .fRd [.answer good]).request = some (.rd1 0x80 0x00) ∧
      (answerOf (.rd1 0x80 0x00) good).isSuccess = true) ∧
    ((busyAt .pB3 [.answer good]).Busy ∧ (Line.channel.states Cfg.default)[3]? = some .pB3 ∧
      (busyAt .pB3 [.answer good]).request = some (.wr1 0x80 0x15 0x08) ∧
      (answerOf (.wr1 0x80 0x15 0x08) good).isSuccess = true) :=
  ⟨⟨⟨by decide, by decide⟩, by decide, by decide, by decide⟩,
    ⟨⟨by decide, by decide⟩, by decide, by decide, by decide⟩⟩

theorem witness_BusErrorEndsTheCommand : (busyAt .fPre [.answer bad]).Busy ∧
    (busyAt .fPre [.answer bad]).request = some (.wr1 0x80 0xFE 121) ∧
    answerOf (.wr1 0x80 0xFE 121) bad = .err 7 := ⟨⟨by decide, by decide⟩, by decide, by decide⟩

theorem witness_AbsentDeviceEndsInit : (busyAt .iProbe [.answer bad]).cfg.wf = true ∧
    (busyAt .iProbe [.answer bad]).st = .iProbe ∧
    (busyAt .iProbe [.answer bad]).inputs = [.answer bad] ∧ bad.present = false := by decide

theorem witness_ResetRunsToOk : (idleWith [0x100000000000] [.answer good, .answer good]).Ready ∧
    decode 0x100000000000 = .reset ∧ good.error = none := ⟨idle_ready _ _, by decide, rfl⟩

theorem witness_InitRunsToOk :
    (idleWith [0x200000000000] [.answer good, .answer good, .answer good]).Ready ∧
    decode 0x200000000000 = .init ∧ good.present = true ∧ good.error = none :=
  ⟨idle_ready _ _, by decide, rfl, rfl⟩

theorem witness_InitOfAbsentDeviceOnlyProbes : (idleWith [0x200000000000] [.answer bad]).Ready ∧
    decode 0x200000000000 = .init ∧ bad.present = false := ⟨idle_ready _ _, by decide, rfl⟩

theorem witness_SetfreqRunsToOk :
    (idleWith [0x30007F800000] (List.replicate 6 (.answer good))).Ready ∧
    decode 0x30007F800000 = .setfreq 0x7F800000 ∧ decodeFreq 0x7F800000 = some ⟨3500, 1⟩ ∧
    good.error = none := ⟨idle_ready _ _, by decide, by decide, rfl⟩

/-- A failure at each of the five places: after 0, 1, 2, 3 and 5 answers. -/
theorem witness_SetfreqShortCircuits : (∀ k ∈ [0, 1, 2, 3, 5],
      (idleWith [0x30007F800000] ((List.replicate k good).map Input.answer ++ [.answer bad])).Ready ∧
      (List.replicate k good).length ∈ [0, 1, 2, 3, 5] ∧ ∀ x ∈ List.replicate k good, x.error = none) ∧
    decode 0x30007F800000 = .setfreq 0x7F800000 ∧ decodeFreq 0x7F800000 = some ⟨3500, 1⟩ ∧
    bad.error = some 7 := by
  refine ⟨fun k hk => ⟨idle_ready _ _, by simpa using hk, ?_⟩, by decide, by decide, rfl⟩
  intro x hx
  rw [List.eq_of_mem_replicate hx]
  rfl

/-- Both commands, both forms. -/
theorem witness_ChannelCommandsRunToOk :
    (idleWith [0x400300640800] ((List.replicate 4 good).map Input.answer)).Ready ∧
    channelCounts Cfg.default (decode 0x400300640800) = some (3, 100, 2048) ∧
    State.Ready { idleWith [0x500F0000FFCE] [.answer good] with cfg := burstCfg } ∧
    channelCounts burstCfg (decode 0x500F0000FFCE) = some (15, 0, 256) ∧
    (List.replicate 4 good).length = (if Cfg.default.burst then 1 else 4) ∧
    [good].length = (if burstCfg.burst then 1 else 4) ∧ ∀ x ∈ List.replicate 4 good, x.error = none :=
  ⟨idle_ready _ _, by decide, burst_ready _ _, by decide, by decide, by decide, by decide⟩

/-- A failure of the first byte and of the last. -/
theorem witness_ChannelWriteShortCircuits : ∀ k ∈ [0, 3],
    (busyAt .pB0 ((List.replicate k good).map Input.answer ++ [.answer bad])).cfg.wf = true ∧
    (busyAt .pB0 ((List.replicate k good).map Input.answer ++ [.answer bad])).cfg.burst = false ∧
    (busyAt .pB0 ((List.replicate k good).map Input.answer ++ [.answer bad])).st = .pB0 ∧
    (busyAt .pB0 ((List.replicate k good).map Input.answer ++ [.answer bad])).trace = [] ∧
    (List.replicate k good).length < 4 ∧ (∀ x ∈ List.replicate k good, x.error = none) ∧
    bad.error = some 7 := by decide

theorem witness_EveryCommandEndsWithinSixAnswers :
    (busyAt .fRd ((List.replicate 6 good).map Input.answer)).Busy ∧ 6 ≤ (List.replicate 6 good).length :=
  ⟨⟨by decide, by decide⟩, by decide⟩

/-- A running command whose last transaction is about to be answered with success. -/
def lastOf (c : Cfg) (st : FsmState) (trace : List Txn) : State :=
  { busyAt st [.answer good] with cfg := c, trace := trace }

/-- What a state at the last place of a line has to meet, apart from its latches' bounds. -/
theorem running_of {c : Cfg} {st : FsmState} {trace : List Txn} {ln : Line}
    (hp : (ln.states c)[trace.length]? = some st)
    (ho : trace.map Txn.request ++ (lastOf c st trace).request.toList =
      (ln.requests c someLatches).take (trace.length + 1))
    (hs : ∀ t ∈ trace, t.answer.isSuccess = true)
    (hb : ∀ t ∈ trace, t.answer = .okByte 0x21 ∨ ∀ b, t.answer ≠ .okByte b) :
    (lastOf c st trace).Running ln := by
  refine ⟨hp, ho, hs, fun t ht b h => ?_⟩
  rcases hb t ht with h' | h'
  · rw [h'] at h
    cases h
    rfl
  · exact absurd h (h' b)

/-- A state in the middle of a line meets the invariant if it is running and `L.PRE` is in bounds. -/
theorem inv_of_running {c : Cfg} {st : FsmState} {trace : List Txn} {ln : Line} (hw : c.wf = true)
    (hi : st ≠ .idle) (hb : c.prescaleMin.toNat ≤ 121 ∧ 121 ≤ c.prescaleMax.toNat)
    (h : (lastOf c st trace).Running ln) : (lastOf c st trace).Inv :=
  ⟨hw, fun _ => ⟨ln, h⟩, fun h => absurd h hi, fun _ => hb⟩

/-- What TransactionCountsAndDurations assumes of a state: its step completes a command with OK. -/
def CompletesNext (s : State) : Prop :=
  s.Inv ∧ s.st ≠ .idle ∧ (∀ is, s.inputs ≠ .blockReset :: is) ∧
    ∃ t, step s = .next t ∧ t.st = .idle ∧ t.res.status = .ok

/-- The clauses of RESET and INIT, and of the burst form. -/
theorem witness_TransactionCountsAndDurations_short :
    CompletesNext (lastOf Cfg.default .rDly [⟨.wr1 0x80 0 0x80, .ok⟩]) ∧
    CompletesNext (lastOf Cfg.default .rDly
      [⟨.probe 0x80 0, .present true⟩, ⟨.wr1 0x80 0 0x80, .ok⟩]) ∧
    CompletesNext (lastOf burstCfg .pBurst []) := by
  refine ⟨⟨inv_of_running (ln := .reset) (by decide) (by decide) (by decide)
      (running_of (by decide) (by decide) (by decide) (by simp)), by decide, by simp [lastOf, busyAt],
      ⟨_, rfl, rfl, rfl⟩⟩,
    ⟨inv_of_running (ln := .init) (by decide) (by decide) (by decide)
      (running_of (by decide) (by decide) (by decide) (by simp)), by decide, by simp [lastOf, busyAt],
      ⟨_, rfl, rfl, rfl⟩⟩,
    ⟨inv_of_running (ln := .channel) (by decide) (by decide) (by decide)
      (running_of (by decide) (by decide) (by decide) (by simp)), by decide, by simp [lastOf, busyAt],
      ⟨_, rfl, rfl, rfl⟩⟩⟩

/-- The clauses of SETFREQ and of the single writes. -/
theorem witness_TransactionCountsAndDurations_long :
    CompletesNext (lastOf Cfg.default .fRestart [⟨.rd1 0x80 0, .okByte 0x21⟩, ⟨.wr1 0x80 0 0x31, .ok⟩,
      ⟨.wr1 0x80 0xFE 121, .ok⟩, ⟨.wr1 0x80 0 0x21, .ok⟩, ⟨.delay 5, .done⟩]) ∧
    CompletesNext (lastOf Cfg.default .pB3
      [⟨.wr1 0x80 0x12 0x64, .ok⟩, ⟨.wr1 0x80 0x13 0, .ok⟩, ⟨.wr1 0x80 0x14 0, .ok⟩]) := by
  refine ⟨⟨inv_of_running (ln := .setfreq) (by decide) (by decide) (by decide)
      (running_of (by decide) (by decide) (by decide) (by simp)), by decide, by simp [lastOf, busyAt],
      ⟨_, rfl, rfl, rfl⟩⟩,
    ⟨inv_of_running (ln := .channel) (by decide) (by decide) (by decide)
      (running_of (by decide) (by decide) (by decide) (by simp)), by decide, by simp [lastOf, busyAt],
      ⟨_, rfl, rfl, rfl⟩⟩⟩

/-- SETFREQ after its first transaction, the next answer waiting. -/
def inSetfreq : State :=
  { busyAt .fSleep [.answer good] with trace := [⟨.rd1 0x80 0x00, .okByte 0x21⟩] }

/-- A running state that meets the invariant and whose step answers a next state. -/
theorem witness_StepKeepsInv : inSetfreq.Inv ∧ ∃ t, step inSetfreq = .next t := by
  refine ⟨⟨by decide, fun _ => ⟨.setfreq, by decide, by decide, by decide, ?_⟩, fun h => ?_, fun _ => by decide⟩,
    ⟨_, rfl⟩⟩
  · intro t ht b hb
    simp only [inSetfreq, List.mem_singleton] at ht
    subst ht
    cases hb
    rfl
  · cases h

theorem witness_CfgIsNeverWritten : ∃ t, step inSetfreq = .next t := ⟨_, rfl⟩

theorem witness_ResultIsWrittenOnlyOnReturnToIdle : ∃ t,
    step (busyAt .fPre [.answer bad]) = .next t ∧ t.res ≠ (busyAt .fPre [.answer bad]).res :=
  ⟨_, rfl, by decide⟩

/-- A delay and a request that is none (both clauses). -/
theorem witness_RequestRecordsAreFaithful : (busyAt .rDly []).request = some (.delay 10) ∧
    (busyAt .fRd []).request = some (.rd1 0x80 0x00) ∧ ∀ ms, Request.rd1 0x80 0x00 ≠ .delay ms :=
  ⟨by decide, by decide, fun _ h => by cases h⟩

/-- The read, the last byte of channel 3, and the burst. -/
theorem witness_PmcAddressesOnlyItsRegisters : (busyAt .fRd []).cfg.wf = true ∧
    (busyAt .fRd []).request = some (.rd1 0x80 0x00) ∧
    (busyAt .pB3 []).request = some (.wr1 0x80 0x15 0x08) ∧
    State.request { busyAt .pBurst [] with cfg := burstCfg } =
      some (.wrn 0x80 0x12 0x64 0x00 0x00 0x08) := by decide

/-- RESET's write, and one of SETFREQ's. -/
theorem witness_Mode1WritesKeepUnrelatedBits : (busyAt .rWr []).cfg.wf = true ∧
    (busyAt .rWr []).request = some (.wr1 0x80 (busyAt .rWr []).cfg.mode1Addr 0x80) ∧
    (busyAt .fSleep []).request = some (.wr1 0x80 (busyAt .fSleep []).cfg.mode1Addr 0x31) ∧
    (busyAt .fSleep []).st ≠ .rWr := by decide

/-- Two states alike but for the dead channel latches, RES and the counter; the step ends the command. -/
theorem witness_DeadLatchesAreNeverRead :
    (busyAt .fSleep [.answer bad]).SameLive
      { busyAt .fSleep [.answer bad] with lat := otherLatches, res := ⟨.busError, 1⟩, draws := 5 } ∧
    (busyAt .fSleep [.answer bad]).st ≠ .idle ∧
    ∀ is, (busyAt .fSleep [.answer bad]).inputs ≠ .blockReset :: is :=
  ⟨⟨rfl, rfl, rfl, rfl, rfl, ⟨rfl, rfl⟩⟩, by decide, fun is h => by cases h⟩

/-- Both clauses: busy, and idle with no command. -/
theorem witness_BlockResetAbandonsTheCommand :
    ((busyAt .fSleep [.blockReset]).st ≠ .idle ∧ (busyAt .fSleep [.blockReset]).inputs = [.blockReset]) ∧
    ((idleWith [] [.blockReset]).offers = [] ∧ (idleWith [] [.blockReset]).inputs = [.blockReset]) := by
  decide

theorem witness_LateAnswersAreIgnored :
    ((busyAt .fSleep [.lateAnswer good]).st ≠ .idle ∧
      (busyAt .fSleep [.lateAnswer good]).inputs = [.lateAnswer good]) ∧
    ((idleWith [] [.lateAnswer good]).offers = [] ∧
      (idleWith [] [.lateAnswer good]).inputs = [.lateAnswer good]) := by decide

/-- For OverlaySelects, PrescaleIsWithinBounds, PulseIsTheRationalFormula, ThrottleEndPoints,
PrescaleIsTheRationalFormula and BurstStoresAsFourSingleWrites: a CFG that meets every premise. -/
theorem witness_wellFormedCfg : Cfg.default.wf1 = true ∧ Cfg.default.wf2 = true ∧
    Cfg.default.wf4 = true ∧ Cfg.default.wf5 = true ∧ Cfg.default.wf = true := by decide

/-- 1 Hz and 3500 Hz. -/
theorem witness_PrescaleIsNonIncreasing : Cfg.default.wf4 = true ∧ (0 : Int) < 1 ∧ (0 : Int) < 3500 ∧
    fracToRat ⟨1, 1⟩ ≤ fracToRat ⟨3500, 1⟩ := by
  refine ⟨by decide, by decide, by decide, ?_⟩
  norm_num [fracToRat]

/-- Both branches of the statement: a NaN and a pattern that decodes. -/
theorem witness_PrescaleIsTheRationalFormula : Cfg.default.wf = true ∧ decodeFreq 0x7FC00000 = none ∧
    decodeFreq 0xFF800000 = some ⟨1, 1⟩ := by decide

/-- The first byte of channel 0 and the last of channel 15, at the last base that fits. -/
theorem witness_ChannelAddressesFitAndDiffer :
    ({ Cfg.default with led0OnLAddr := 192 } : Cfg).wf2 = true ∧ (0 : Nat) ≤ 3 ∧ (3 : Nat) ≤ 3 := by decide

theorem witness_PulseIsNonDecreasing : Cfg.default.wf5 = true ∧ (-101 : Int) ≤ 101 := by decide

/-- A pair of PMC and E_ref. -/
def bench (p : State) : Bench :=
  { pmc := p, env := { reg := [(0, 0x21)], present := true, fail := [], count := 0, errorValue := 7 } }

theorem bench_wf (p : State) : (bench p).env.reg.wf := by
  show Memory.wf [(0, 0x21)]
  decide

/-- A transaction that writes MODE1 and so leaves address 6. -/
theorem witness_TransactionWritesOnlyItsBytes : (bench (busyAt .fSleep [])).env.reg.wf ∧
    (∃ b', (bench (busyAt .fSleep [])).step = .next b') ∧
    ∀ r, (bench (busyAt .fSleep [])).pmc.request = some r → ∀ p ∈ r.writes, p.1.toNat ≠ 6 := by
  refine ⟨bench_wf _, ⟨_, rfl⟩, fun r hr => ?_⟩
  have hq : (bench (busyAt .fSleep [])).pmc.request = some (.wr1 0x80 0x00 0x31) := by decide
  rw [← Option.some.inj (hq.symm.trans hr)]
  simp [Request.writes]

/-- Both forms; the hypotheses of ChannelCommandsInEref. -/
theorem witness_ChannelCommandsInEref : (bench (idleWith [0x400300640800] [])).pmc.Ready ∧
    (bench (idleWith [0x400300640800] [])).env.reg.wf ∧
    (bench (idleWith [0x400300640800] [])).env.fail = [] ∧
    channelCounts Cfg.default (decode 0x400300640800) = some (3, 100, 2048) ∧
    (bench { idleWith [0x500F0000FFCE] [] with cfg := burstCfg }).pmc.Ready ∧
    channelCounts burstCfg (decode 0x500F0000FFCE) = some (15, 0, 256) :=
  ⟨idle_ready _ _, bench_wf _, rfl, by decide, burst_ready _ _, by decide⟩

theorem witness_SetfreqInEref : (bench (idleWith [0x30007F800000] [])).pmc.Ready ∧
    (bench (idleWith [0x30007F800000] [])).env.reg.wf ∧
    (bench (idleWith [0x30007F800000] [])).env.fail = [] ∧
    decode 0x30007F800000 = .setfreq 0x7F800000 ∧ decodeFreq 0x7F800000 = some ⟨3500, 1⟩ :=
  ⟨idle_ready _ _, bench_wf _, rfl, by decide, by decide⟩

/-- RESET, and INIT of a present device. -/
theorem witness_ResetAndInitInEref : (bench (idleWith [0x100000000000] [])).pmc.Ready ∧
    (bench (idleWith [0x100000000000] [])).env.reg.wf ∧
    (bench (idleWith [0x100000000000] [])).env.fail = [] ∧ decode 0x100000000000 = .reset ∧
    (bench (idleWith [0x200000000000] [])).pmc.Ready ∧ decode 0x200000000000 = .init ∧
    (bench (idleWith [0x200000000000] [])).env.present = true :=
  ⟨idle_ready _ _, bench_wf _, rfl, by decide, idle_ready _ _, by decide, rfl⟩

end Sys2Proof.Tests
end

/-! # The recorded trace is never read (log 13)

What an answer does to the state commutes with dropping the trace (`State.clearTrace`), a command begins by
dropping it, and no guard of a step looks at it. -/

section
namespace Sys2Proof.Machine

/-- The state with another history recorded in it. -/
def State.setTrace (s : State) (tr : List Txn) : State := { s with trace := tr }

/-! ## Dropping the trace commutes with each operation on the state -/

@[simp] theorem State.clearTrace_setTrace (s : State) (tr : List Txn) :
    (s.setTrace tr).clearTrace = s.clearTrace := rfl

@[simp] theorem State.clearTrace_record (s : State) (r : Request) (a : Answer) :
    (s.record r a).clearTrace = s.clearTrace := rfl

@[simp] theorem State.clearTrace_enter (s : State) (n : FsmState) :
    (s.enter n).clearTrace = s.clearTrace.enter n := rfl

@[simp] theorem State.clearTrace_latchOldMode (s : State) (b : Byte) :
    (s.latchOldMode b).clearTrace = s.clearTrace.latchOldMode b := rfl

@[simp] theorem State.clearTrace_complete (s : State) (k : Status) (d : Option TransportError) :
    (s.complete k d).clearTrace = s.clearTrace.complete k d := by
  cases d <;> rfl

@[simp] theorem State.clearTrace_proceed (s : State) : s.proceed.clearTrace = s.clearTrace.proceed := by
  by_cases h : nextOnSuccess s.st = .idle
  · rw [State.proceed_of_last h, State.proceed_of_last (s := s.clearTrace) h]
    exact s.clearTrace_complete .ok none
  · rw [State.proceed_of_more h, State.proceed_of_more (s := s.clearTrace) h]
    exact s.clearTrace_enter _

@[simp] theorem State.clearTrace_receive (s : State) (a : Answer) :
    (s.receive a).clearTrace = s.clearTrace.receive a := by
  cases a with
  | present p => cases p <;> simp
  | okByte b => simp
  | ok => simp
  | err e => simp
  | done => simp

/-! ## The stops of an answer, and the step that takes an event -/

theorem respond_of_illFormed {s : State} (y : Reply) (hw : s.cfg.wf = false) :
    respond s y = .refused .illFormedCfg := by
  simp [respond, hw]

theorem respond_of_noRequest {s : State} (y : Reply) (hw : s.cfg.wf = true) (hr : s.request = none) :
    respond s y = .fault .unsolicitedAnswer := by
  simp [respond, hw, hr]

/-- With no word to accept, the step takes the next event outside. -/
theorem step_of_input {s : State} {i : Input} {is : List Input} (hc : s.st ≠ .idle ∨ s.offers = [])
    (hin : s.inputs = i :: is) : step s = takeInput { s with inputs := is } i :=
  hc.elim (fun hb => step_of_busy hb hin) (fun ho => step_of_noOffer ho hin)

/-! ## Operations from two states that differ in the recorded trace alone -/

/-- The two states differ at most in the recorded trace. -/
def State.SameButTrace (s t : State) : Prop := s.clearTrace = t.clearTrace

variable (s : State) (tr : List Txn)

/-- An accepted command begins with an empty trace, whatever was recorded before. -/
theorem accept_setTrace (run : State → State) :
    outcomesAgree State.SameButTrace (accept s run) (accept (s.setTrace tr) run) := by
  rcases hw : s.cfg.wf with _ | _
  · rw [accept_of_illFormed hw, accept_of_illFormed (s := s.setTrace tr) hw]
    exact rfl
  · by_cases hi : s.st = .idle
    · rw [accept_of_ready hw hi, accept_of_ready (s := s.setTrace tr) hw hi]
      exact rfl
    · rw [accept_of_busy hw hi, accept_of_busy (s := s.setTrace tr) hw hi]
      exact rfl

theorem exec_setTrace (i : Instr) :
    outcomesAgree State.SameButTrace (exec i s) (exec i (s.setTrace tr)) := by
  obtain ⟨run, hrun⟩ := exec_eq_accept i
  rw [hrun, hrun]
  exact accept_setTrace s tr run

/-- The outstanding request does not depend on the trace, and the answer only adds to it. -/
theorem respond_setTrace (y : Reply) :
    outcomesAgree State.SameButTrace (respond s y) (respond (s.setTrace tr) y) := by
  rcases hw : s.cfg.wf with _ | _
  · rw [respond_of_illFormed y hw, respond_of_illFormed (s := s.setTrace tr) y hw]
    exact rfl
  · have ht : (s.setTrace tr).request = s.request := State.request_congr rfl rfl rfl
    rcases hr : s.request with _ | r
    · rw [respond_of_noRequest y hw hr, respond_of_noRequest (s := s.setTrace tr) y hw (ht.trans hr)]
      exact rfl
    · rw [respond_of_request y hw hr, respond_of_request (s := s.setTrace tr) y hw (ht.trans hr)]
      simp [outcomesAgree, State.SameButTrace]

theorem takeInput_setTrace (i : Input) :
    outcomesAgree State.SameButTrace (takeInput s i) (takeInput (s.setTrace tr) i) := by
  cases i with
  | offer w => exact rfl
  | answer y => exact respond_setTrace s tr y
  | lateAnswer y => exact rfl
  | blockReset => exact rfl

theorem step_setTrace :
    outcomesAgree State.SameButTrace (step s) (step (s.setTrace tr)) := by
  rcases step_cases s with ⟨w, ws, hi, ho, he⟩ | ⟨i, is, hc, hin, he⟩ | ⟨hc, hin, he⟩
  · rw [he, step_of_offer (s := s.setTrace tr) hi ho]
    exact exec_setTrace { s with offers := ws } tr (decode w)
  · rw [he, step_of_input (s := s.setTrace tr) hc hin]
    exact takeInput_setTrace { s with inputs := is } tr i
  · rw [he, step_of_nothing (s := s.setTrace tr) hc hin]
    exact rfl

/-- Settles O39: by the case split of a step into accepting a command, taking an event and waiting. -/
theorem traceIsNeverRead : Obligations.TraceIsNeverRead := step_setTrace

end Sys2Proof.Machine
end

/-! # Acceptance: what each of the sixteen rows does in IDLE

`CommandRun i run` lists the meanings a command can have once it is accepted; `exec_eq_accept_run` ties the list
to `exec`, and the facts about acceptance are read off its six cases. -/

section
namespace Sys2Proof.Machine

/-- `run` is what command `i` does when it is accepted (R92 to R94): the contract violations of R94 do one thing,
and each command of R92 starts its line. -/
inductive CommandRun : Instr → (State → State) → Prop
  | violation {i : Instr} (h : violatesContract i = true) : CommandRun i State.contractViolation
  | reset : CommandRun .reset fun s => s.enter .rWr
  | init : CommandRun .init fun s => s.enter .iProbe
  | setfreq {f : BitVec 32} {fc : Frac} (h : decodeFreq f = some fc) :
      CommandRun (.setfreq f) fun s => (s.latchPre (computePrescale s.cfg fc)).enter .fRd
  | setpwm {ch : BitVec 8} (on off : BitVec 16) (h : ch.toNat ≤ 15) :
      CommandRun (.setpwm ch on off) fun s =>
        s.startChannelWrite (latchedChannel ch) (clamp12 on) (clamp12 off)
  | setthr {ch : BitVec 8} (pct : BitVec 16) (h : ch.toNat ≤ 15) :
      CommandRun (.setthr ch pct) fun s =>
        s.startChannelWrite (latchedChannel ch) thrOn (thrPulse s.cfg (throttleOf pct))

/-- An illegal opcode and a channel command on a channel above 15 are accepted as contract violations. -/
theorem commandRun_violation {i : Instr} (h : violatesContract i = true)
    (he : ∀ s, exec i s = accept s State.contractViolation) :
    ∃ run, CommandRun i run ∧ ∀ s, exec i s = accept s run :=
  ⟨_, .violation h, he⟩

/-- `exec` accepts every command as one of the listed runs. -/
theorem exec_eq_accept_run (i : Instr) : ∃ run, CommandRun i run ∧ ∀ s, exec i s = accept s run := by
  cases i with
  | reset => exact ⟨_, .reset, exec_reset⟩
  | init => exact ⟨_, .init, exec_init⟩
  | setfreq f =>
    rcases hf : decodeFreq f with _ | fc
    · exact commandRun_violation ((decodeFreq_eq_none_iff f).1 hf) fun s => by rw [exec_setfreq, hf]
    · exact ⟨_, .setfreq hf, fun s => by rw [exec_setfreq, hf]⟩
  | setpwm ch on off =>
    by_cases hch : ch.toNat ≤ 15
    · exact ⟨_, .setpwm on off hch, fun s => by simp only [exec_setpwm, (chanOK_iff ch).2 hch, if_true]⟩
    · exact commandRun_violation (by simpa [violatesContract] using hch) fun s => by
        simp only [exec_setpwm, mt (chanOK_iff ch).1 hch]; rfl
  | setthr ch pct =>
    by_cases hch : ch.toNat ≤ 15
    · exact ⟨_, .setthr pct hch, fun s => by simp only [exec_setthr, (chanOK_iff ch).2 hch, if_true]⟩
    · exact commandRun_violation (by simpa [violatesContract] using hch) fun s => by
        simp only [exec_setthr, mt (chanOK_iff ch).1 hch]; rfl
  | illegal0 => exact commandRun_violation rfl exec_illegal0
  | illegal6 => exact commandRun_violation rfl exec_illegal6
  | illegal7 => exact commandRun_violation rfl exec_illegal7
  | illegal8 => exact commandRun_violation rfl exec_illegal8
  | illegal9 => exact commandRun_violation rfl exec_illegal9
  | illegalA => exact commandRun_violation rfl exec_illegalA
  | illegalB => exact commandRun_violation rfl exec_illegalB
  | illegalC => exact commandRun_violation rfl exec_illegalC
  | illegalD => exact commandRun_violation rfl exec_illegalD
  | illegalE => exact commandRun_violation rfl exec_illegalE
  | illegalF => exact commandRun_violation rfl exec_illegalF

/-- All that `exec` can answer with a next state: busy, nothing (R44); in IDLE, the run of the command. -/
theorem exec_next {s t : State} {i : Instr} (h : exec i s = .next t) :
    (s.st ≠ .idle ∧ t = s) ∨ ∃ run, CommandRun i run ∧ s.st = .idle ∧ t = run s.clearTrace := by
  obtain ⟨run, hrun, he⟩ := exec_eq_accept_run i
  obtain ⟨-, hb | ⟨hi, rfl⟩⟩ := accept_next (he s ▸ h)
  · exact .inl hb
  · exact .inr ⟨run, hrun, hi, rfl⟩

/-! ## The start of a channel write -/

section
variable (s : State) (ch : BitVec 4) (on off : BitVec 12)

@[simp] theorem State.startChannelWrite_cfg : (s.startChannelWrite ch on off).cfg = s.cfg := rfl
@[simp] theorem State.startChannelWrite_st :
    (s.startChannelWrite ch on off).st = if s.cfg.burst then .pBurst else .pB0 := rfl
@[simp] theorem State.startChannelWrite_lat :
    (s.startChannelWrite ch on off).lat = { s.lat with ch := ch, on := on, off := off } := rfl
@[simp] theorem State.startChannelWrite_res : (s.startChannelWrite ch on off).res = s.res := rfl
@[simp] theorem State.startChannelWrite_offers : (s.startChannelWrite ch on off).offers = s.offers := rfl
@[simp] theorem State.startChannelWrite_inputs : (s.startChannelWrite ch on off).inputs = s.inputs := rfl
@[simp] theorem State.startChannelWrite_trace : (s.startChannelWrite ch on off).trace = s.trace := rfl

end

/-! ## The frame of acceptance -/

/-- The commands that write the channel latches (R37). -/
def Instr.isChannelCommand (i : Instr) : Prop :=
  (∃ ch on off, i = .setpwm ch on off) ∨ ∃ ch p, i = .setthr ch p

/-- No run touches CFG, the ports or `L.OLDMODE`. -/
theorem CommandRun.frame {i : Instr} {run : State → State} (h : CommandRun i run) (s : State) :
    (run s).cfg = s.cfg ∧ (run s).offers = s.offers ∧ (run s).inputs = s.inputs ∧
      (run s).lat.oldMode = s.lat.oldMode := by
  cases h <;> simp [State.contractViolation_eq]

/-- `L.PRE` is SETFREQ's (R36). -/
theorem CommandRun.pre_eq {i : Instr} {run : State → State} (h : CommandRun i run)
    (hi : ∀ f, i ≠ .setfreq f) (s : State) : (run s).lat.pre = s.lat.pre := by
  cases h with
  | violation _ => simp [State.contractViolation_eq]
  | reset => rfl
  | init => rfl
  | setfreq _ => exact absurd rfl (hi _)
  | setpwm on off _ => rfl
  | setthr pct _ => rfl

/-- `L.CH`, `L.ON` and `L.OFF` are those of SETPWM and SETTHR (R37). -/
theorem CommandRun.channel_eq {i : Instr} {run : State → State} (h : CommandRun i run)
    (hi : ¬ Instr.isChannelCommand i) (s : State) :
    (run s).lat.ch = s.lat.ch ∧ (run s).lat.on = s.lat.on ∧ (run s).lat.off = s.lat.off := by
  cases h with
  | violation _ => simp [State.contractViolation_eq]
  | reset => simp
  | init => simp
  | setfreq _ => simp
  | setpwm on off _ => exact absurd (.inl ⟨_, _, _, rfl⟩) hi
  | setthr pct _ => exact absurd (.inr ⟨_, _, rfl⟩) hi

/-- A violation completes at once; every other command leaves RES alone (R43, R94). -/
theorem CommandRun.violation_or_res_eq {i : Instr} {run : State → State} (h : CommandRun i run) (s : State) :
    (violatesContract i = true ∧ run s = s.complete .contractViolation none) ∨
    (violatesContract i = false ∧ (run s).res = s.res) := by
  cases h with
  | violation hv => exact .inl ⟨hv, rfl⟩
  | reset => exact .inr ⟨rfl, rfl⟩
  | init => exact .inr ⟨rfl, rfl⟩
  | @setfreq f fc hf =>
    have hn : ¬ isNaN f = true := fun hn => by simp [(decodeFreq_eq_none_iff f).2 hn] at hf
    exact .inr ⟨by simpa [violatesContract] using hn, rfl⟩
  | setpwm on off hch => exact .inr ⟨by simpa [violatesContract] using hch, rfl⟩
  | setthr pct hch => exact .inr ⟨by simpa [violatesContract] using hch, rfl⟩

/-- Settles O18: from the frame of each run, and busy nothing changes. -/
theorem acceptanceFrame : Obligations.AcceptanceFrame := by
  intro s t i h
  rcases exec_next h with ⟨-, rfl⟩ | ⟨run, hrun, -, rfl⟩
  · simp
  · obtain ⟨hcfg, hoffers, hinputs, hold⟩ := hrun.frame s.clearTrace
    refine ⟨hcfg, hoffers, hinputs, hold, fun hf => hrun.pre_eq hf _, fun hpwm hthr => ?_, ?_⟩
    · refine hrun.channel_eq ?_ _
      rintro (⟨ch, on, off, rfl⟩ | ⟨ch, p, rfl⟩)
      · exact hpwm _ _ _ rfl
      · exact hthr _ _ rfl
    · rcases hrun.violation_or_res_eq s.clearTrace with ⟨hv, ht⟩ | ⟨hv, hr⟩
      · simp [hv, ht]
      · simp [hv, hr]

/-- Settles O5: the model's own law of a step that accepts. -/
theorem stepRunsDecodedCommand : Obligations.StepRunsDecodedCommand :=
  fun _ _ _ hi ho => step_of_offer hi ho

/-- Settles O9: every row is an `accept`, which refuses under an ill-formed CFG. -/
theorem illFormedCfgIsRefused : Obligations.IllFormedCfgIsRefused := by
  intro s i hw
  obtain ⟨run, hrun⟩ := exec_eq_accept i
  rw [hrun]
  exact accept_of_illFormed hw

end Sys2Proof.Machine
end

/-! # The codes and the reset state -/

section
namespace Sys2Proof.Machine

/-- The states in the order of their codes (R40). -/
def fsmStates : List FsmState :=
  [.idle, .iProbe, .rWr, .rDly, .fRd, .fSleep, .fPre, .fWake, .fDly, .fRestart, .pB0, .pB1, .pB2, .pB3, .pBurst]

/-- A code is the place of its state in the list. -/
theorem fsmStates_getElem?_code (p : FsmState) : fsmStates[p.code.toNat]? = some p := by
  cases p <;> rfl

/-- The fifteen codes are all different, since each gives its state back. -/
theorem FsmState.code_injective (p q : FsmState) (h : p.code = q.code) : p = q := by
  have hp := fsmStates_getElem?_code p
  rw [h, fsmStates_getElem?_code q] at hp
  exact (Option.some.inj hp).symm

/-- Code 15 is unused (R40). -/
theorem FsmState.code_ne_fifteen (p : FsmState) : p.code ≠ 15 := by
  cases p <;> decide

/-- Code 0 is OK's alone (R43). -/
theorem Status.code_eq_zero_iff (k : Status) : k.code = 0 ↔ k = .ok := by
  cases k <;> decide

theorem State.success_iff (s : State) : s.success = true ↔ s.res.status = .ok := by
  rw [← Status.code_eq_zero_iff]
  exact beq_iff_eq

/-- Settles O58: the codes by value, and the three facts about all of them. -/
theorem stateAndStatusCodes : Obligations.StateAndStatusCodes :=
  ⟨rfl, rfl, rfl, rfl, rfl, rfl, rfl, rfl, rfl, rfl, rfl, rfl, rfl, rfl, rfl, FsmState.code_injective,
    FsmState.code_ne_fifteen, rfl, rfl, rfl, rfl, fun _ => rfl, State.success_iff⟩

/-- Settles O57: by evaluation; that the reset CFG is well formed is the model's own test. -/
theorem resetStateIsIdleAndReady : Obligations.ResetStateIsIdleAndReady :=
  ⟨rfl, rfl, rfl, rfl, rfl, Sys2Proof.Tests.test_default_is_wellFormed.1⟩

end Sys2Proof.Machine
end

/-! # Lines and answers

The states of a line follow the column "next on success" of the table of R42 and issue the line's requests; an
answer either ends the command or, after the byte of the MODE1 read is latched, goes on along the line. -/

section
namespace Sys2Proof.Machine

/-! ## The lines and the sequencer -/

/-- `nextOnSuccess` shifts a line by one place, and takes its last state to IDLE (R42). -/
theorem Line.map_nextOnSuccess_states (ln : Line) (c : Cfg) :
    (ln.states c).map nextOnSuccess = (ln.states c).tail ++ [.idle] := by
  cases ln with
  | reset => rfl
  | init => rfl
  | setfreq => rfl
  | channel => cases h : c.burst <;> simp [Line.states, h, nextOnSuccess]

/-- The state after the one at place `k`: the line's next one, or IDLE. -/
theorem Line.nextOnSuccess_eq {ln : Line} {c : Cfg} {k : Nat} {p : FsmState}
    (h : (ln.states c)[k]? = some p) : nextOnSuccess p = ((ln.states c)[k + 1]?).getD .idle := by
  have hk : k < (ln.states c).length := (List.getElem?_eq_some_iff.1 h).1
  have hmap : ((ln.states c).tail ++ [FsmState.idle])[k]? = some (nextOnSuccess p) := by
    rw [← ln.map_nextOnSuccess_states c, List.getElem?_map, h]; rfl
  rw [List.getElem?_append, List.length_tail, List.getElem?_tail] at hmap
  split at hmap
  · rw [hmap]; rfl
  · have hlast : k - ((ln.states c).length - 1) = 0 := by omega
    rw [hlast] at hmap
    rw [List.getElem?_eq_none (by omega)]
    exact (Option.some.inj hmap).symm

/-- IDLE is on no line. -/
theorem Line.idle_notMem_states (ln : Line) (c : Cfg) : FsmState.idle ∉ ln.states c := by
  cases ln with
  | reset => simp [Line.states]
  | init => simp [Line.states]
  | setfreq => simp [Line.states]
  | channel => cases h : c.burst <;> simp [Line.states, h]

/-- Where the line has a next state it is the next one of the sequencer. -/
theorem Line.getElem?_succ_of_more {ln : Line} {c : Cfg} {k : Nat} {p : FsmState}
    (h : (ln.states c)[k]? = some p) (hn : nextOnSuccess p ≠ .idle) :
    (ln.states c)[k + 1]? = some (nextOnSuccess p) := by
  have hnext := Line.nextOnSuccess_eq h
  rcases hk : (ln.states c)[k + 1]? with _ | n
  · rw [hk] at hnext; exact absurd hnext hn
  · rw [hk] at hnext; rw [hnext]; rfl

/-- The sequencer returns to IDLE at the end of the line alone. -/
theorem Line.length_states_of_last {ln : Line} {c : Cfg} {k : Nat} {p : FsmState}
    (h : (ln.states c)[k]? = some p) (hn : nextOnSuccess p = .idle) : (ln.states c).length = k + 1 := by
  have hnext := Line.nextOnSuccess_eq h
  have hlt : k < (ln.states c).length := (List.getElem?_eq_some_iff.1 h).1
  rcases hk : (ln.states c)[k + 1]? with _ | n
  · have := List.getElem?_eq_none_iff.1 hk
    omega
  · rw [hk, hn] at hnext
    exact absurd (List.mem_of_getElem? (hk.trans (congrArg some hnext.symm))) (ln.idle_notMem_states c)

/-- The requests of a line are those its states issue (R42, R110, R114, R151, R178, R179). -/
theorem Line.map_some_requests (ln : Line) (s : State) :
    (ln.requests s.cfg s.lat).map some = (ln.states s.cfg).map fun p => (s.enter p).request := by
  cases ln with
  | reset => rfl
  | init => rfl
  | setfreq => rfl
  | channel =>
    cases h : s.cfg.burst <;>
      simp [Line.requests, channelRequests, Line.states, State.request, h]

theorem Line.length_requests (ln : Line) (s : State) :
    (ln.requests s.cfg s.lat).length = (ln.states s.cfg).length := by
  simpa using congrArg List.length (ln.map_some_requests s)

/-- At place `k` of a line the outstanding request is the line's `k`-th. -/
theorem Line.getElem?_requests {ln : Line} {s : State} {k : Nat}
    (h : (ln.states s.cfg)[k]? = some s.st) : (ln.requests s.cfg s.lat)[k]? = s.request := by
  have hk := congrArg (·[k]?) (ln.map_some_requests s)
  simp only [List.getElem?_map, h, Option.map_some] at hk
  obtain ⟨r, hr, hreq⟩ := Option.map_eq_some_iff.1 hk
  exact hr.trans hreq

/-- The MODE1 read is the first state of SETFREQ and is on no other line. -/
theorem Line.eq_of_fRd {ln : Line} {c : Cfg} {k : Nat} (h : (ln.states c)[k]? = some .fRd) :
    ln = .setfreq ∧ k = 0 := by
  have hmem := List.mem_of_getElem? h
  cases ln with
  | reset => simp [Line.states] at hmem
  | init => simp [Line.states] at hmem
  | setfreq =>
    cases k with
    | zero => exact ⟨rfl, rfl⟩
    | succ k =>
      have hlater : FsmState.fRd ∈ (Line.setfreq.states c).tail :=
        List.mem_of_getElem? (by rw [List.getElem?_tail]; exact h)
      simp [Line.states] at hlater
  | channel => cases hb : c.burst <;> simp [Line.states, hb] at hmem

/-! ## What an answer does -/

/-- The byte of the MODE1 read goes to `L.OLDMODE`; no other answer is latched (R35, R152). -/
def State.latchAnswer (s : State) (a : Answer) : State :=
  match a with
  | .okByte b => s.latchOldMode b
  | .present _ => s
  | .ok => s
  | .err _ => s
  | .done => s

/-- Latching an answer changes the latches only. -/
theorem State.latchAnswer_eq (s : State) (a : Answer) :
    s.latchAnswer a = { s with lat := (s.latchAnswer a).lat } := by
  cases a <;> rfl

@[simp] theorem State.latchAnswer_cfg (s : State) (a : Answer) : (s.latchAnswer a).cfg = s.cfg := by
  rw [State.latchAnswer_eq]
@[simp] theorem State.latchAnswer_st (s : State) (a : Answer) : (s.latchAnswer a).st = s.st := by
  rw [State.latchAnswer_eq]
@[simp] theorem State.latchAnswer_res (s : State) (a : Answer) : (s.latchAnswer a).res = s.res := by
  rw [State.latchAnswer_eq]
@[simp] theorem State.latchAnswer_offers (s : State) (a : Answer) :
    (s.latchAnswer a).offers = s.offers := by
  rw [State.latchAnswer_eq]
@[simp] theorem State.latchAnswer_inputs (s : State) (a : Answer) :
    (s.latchAnswer a).inputs = s.inputs := by
  rw [State.latchAnswer_eq]
@[simp] theorem State.latchAnswer_trace (s : State) (a : Answer) : (s.latchAnswer a).trace = s.trace := by
  rw [State.latchAnswer_eq]
@[simp] theorem State.latchAnswer_pre (s : State) (a : Answer) :
    (s.latchAnswer a).lat.pre = s.lat.pre := by
  cases a <;> rfl

/-- A successful answer is latched, and the line goes on (R41, R42). -/
theorem State.receive_of_isSuccess {s : State} {a : Answer} (h : a.isSuccess = true) :
    s.receive a = (s.latchAnswer a).proceed := by
  cases a with
  | present p => cases (show p = true from h); rfl
  | okByte b => rfl
  | ok => rfl
  | err e => cases h
  | done => rfl

/-- The answers that end a command: `Err(e)`, and a probe answered `false` (R206, R207). -/
theorem Answer.failure_cases {a : Answer} (h : a.isSuccess = false) :
    (∃ e, a = .err e) ∨ a = .present false := by
  cases a with
  | present p => cases (show p = false from h); exact .inr rfl
  | okByte b => cases h
  | ok => cases h
  | err e => exact .inl ⟨e, rfl⟩
  | done => cases h

/-- All that an answer can do: end the command as a failure, complete the line, or go on along it. -/
theorem State.receive_cases (s : State) (a : Answer) :
    (∃ e, a = .err e ∧ s.receive a = s.complete .busError (some e)) ∨
    (a = .present false ∧ s.receive a = s.complete .deviceNotReady none) ∨
    (a.isSuccess = true ∧ nextOnSuccess s.st = .idle ∧
      s.receive a = (s.latchAnswer a).complete .ok none) ∨
    (a.isSuccess = true ∧ nextOnSuccess s.st ≠ .idle ∧
      s.receive a = (s.latchAnswer a).enter (nextOnSuccess s.st)) := by
  rcases ha : a.isSuccess with _ | _
  · rcases Answer.failure_cases ha with ⟨e, rfl⟩ | rfl
    · exact .inl ⟨e, rfl, rfl⟩
    · exact .inr (.inl ⟨rfl, rfl⟩)
  · have hp := (s.latchAnswer a).proceed_cases
    rw [State.latchAnswer_st, ← State.receive_of_isSuccess ha] at hp
    rcases hp with ⟨hn, ht⟩ | ⟨hn, ht⟩
    · exact .inr (.inr (.inl ⟨rfl, hn, ht⟩))
    · exact .inr (.inr (.inr ⟨rfl, hn, ht⟩))

/-- After an answer PMC is in IDLE, or in the next state of the line with RES as it was (R41, R43). -/
theorem State.receive_st (s : State) (a : Answer) :
    (s.receive a).st = .idle ∨ ((s.receive a).st = nextOnSuccess s.st ∧ (s.receive a).res = s.res) := by
  rcases s.receive_cases a with ⟨e, -, h⟩ | ⟨-, h⟩ | ⟨-, -, h⟩ | ⟨-, -, h⟩ <;> simp [h]

/-! ## The answer of the MODE1 read -/

theorem State.st_of_request_rd1 {s : State} {d a : Byte} (h : s.request = some (.rd1 d a)) :
    s.st = .fRd := by
  unfold State.request at h
  split at h <;> simp_all

theorem answerOf_eq_okByte {r : Request} {y : Reply} {b : Byte} (h : answerOf r y = .okByte b) :
    ∃ d a, r = .rd1 d a := by
  cases r with
  | probe d t => cases h
  | rd1 d a => exact ⟨d, a, rfl⟩
  | wr1 d a b => cases hy : y.error <;> simp [answerOf, hy] at h
  | wrn d a b0 b1 b2 b3 => cases hy : y.error <;> simp [answerOf, hy] at h
  | delay ms => cases h

/-- In F_RD success is the byte read; a byte is answered in no other state. -/
theorem State.success_cases {s : State} {r : Request} {y : Reply} (h : s.request = some r)
    (hok : (answerOf r y).isSuccess = true) :
    (s.st = .fRd ∧ answerOf r y = .okByte y.byte) ∨
    (s.st ≠ .fRd ∧ ∀ b, answerOf r y ≠ .okByte b) := by
  by_cases hf : s.st = .fRd
  · simp only [State.request, hf, Option.some.injEq] at h
    subst h
    cases hy : y.error with
    | none => exact .inl ⟨hf, by simp [answerOf, hy]⟩
    | some e => simp [answerOf, hy, Answer.isSuccess] at hok
  · refine .inr ⟨hf, fun b hb => hf ?_⟩
    obtain ⟨d, a, rfl⟩ := answerOf_eq_okByte hb
    exact State.st_of_request_rd1 h

theorem State.latchAnswer_of_ne_okByte (s : State) {a : Answer} (h : ∀ b, a ≠ .okByte b) :
    s.latchAnswer a = s := by
  cases a with
  | okByte b => exact absurd rfl (h b)
  | present _ => rfl
  | ok => rfl
  | err _ => rfl
  | done => rfl

end Sys2Proof.Machine
end

/-! # What every step keeps, and how a running command goes on

Read off the inversion of a step (`step_next`), the runs of acceptance (`exec_next`) and all an answer can do
(`State.receive_cases`). -/

section
namespace Sys2Proof.Machine

/-- Acceptance ends in IDLE or leaves RES as it was (R43, R94). -/
theorem exec_st_or_res {s t : State} {i : Instr} (h : exec i s = .next t) : t.st = .idle ∨ t.res = s.res := by
  rcases exec_next h with ⟨-, rfl⟩ | ⟨run, hrun, -, rfl⟩
  · exact .inr rfl
  · rcases hrun.violation_or_res_eq s.clearTrace with ⟨-, ht⟩ | ⟨-, hr⟩
    · exact .inl (by rw [ht]; rfl)
    · exact .inr hr

/-- Settles O34: neither acceptance, nor an answer, nor any other event writes CFG. -/
theorem cfgIsNeverWritten : Obligations.CfgIsNeverWritten := by
  intro s t h
  rcases step_next h with ⟨w, ws, -, -, he⟩ | ⟨w, is, -, rfl⟩ | ⟨y, is, -, -, hr⟩ | ⟨y, is, -, rfl⟩ |
    ⟨is, -, rfl⟩ | ⟨-, rfl⟩
  · exact (acceptanceFrame _ _ _ he).1
  · rfl
  · obtain ⟨-, r, -, rfl⟩ := respond_next hr
    simp
  · rfl
  · rfl
  · rfl

/-- Settles O35: acceptance and an answer either end in IDLE or leave RES; a block reset ends in IDLE. -/
theorem resultIsWrittenOnlyOnReturnToIdle : Obligations.ResultIsWrittenOnlyOnReturnToIdle := by
  intro s t h hres
  rcases step_next h with ⟨w, ws, -, -, he⟩ | ⟨w, is, -, rfl⟩ | ⟨y, is, -, -, hr⟩ | ⟨y, is, -, rfl⟩ |
    ⟨is, -, rfl⟩ | ⟨-, rfl⟩
  · exact (exec_st_or_res he).resolve_right hres
  · exact absurd rfl hres
  · obtain ⟨-, r, -, rfl⟩ := respond_next hr
    exact (State.receive_st _ _).resolve_right fun hkept => hres hkept.2
  · exact absurd rfl hres
  · rfl
  · exact absurd rfl hres

/-- Settles O6: a busy `accept` keeps the state, and the events that can happen while busy at most append to the
words held. -/
theorem busyTakesNoCommand : Obligations.BusyTakesNoCommand := by
  intro s ⟨hw, hb⟩
  refine ⟨fun i => ?_, fun t h => ?_⟩
  · obtain ⟨run, hrun⟩ := exec_eq_accept i
    rw [hrun]
    exact accept_of_busy hw hb
  · rcases step_next h with ⟨w, ws, hi, -, -⟩ | ⟨w, is, -, rfl⟩ | ⟨y, is, -, -, hr⟩ | ⟨y, is, -, rfl⟩ |
      ⟨is, -, rfl⟩ | ⟨-, rfl⟩
    · exact absurd hi hb
    · exact ⟨[w], rfl⟩
    · obtain ⟨-, r, -, rfl⟩ := respond_next hr
      exact ⟨[], by simp⟩
    · exact ⟨[], by simp⟩
    · exact ⟨[], by simp⟩
    · exact ⟨[], by simp⟩

/-! ## A successful answer -/

/-- What a successful answer leaves in the latches: in F_RD the byte read is in `L.OLDMODE` (R35). -/
theorem State.latchAnswer_lat {s : State} {r : Request} {y : Reply} (h : s.request = some r)
    (hok : (answerOf r y).isSuccess = true) :
    (s.latchAnswer (answerOf r y)).lat =
      if s.st = .fRd then { s.lat with oldMode := y.byte } else s.lat := by
  rcases State.success_cases h hok with ⟨hf, ha⟩ | ⟨hf, ha⟩
  · rw [ha, if_pos hf]; rfl
  · rw [State.latchAnswer_of_ne_okByte _ ha, if_neg hf]

/-- The latches are those of the latched answer, whether the line goes on or is over. -/
@[simp] theorem State.proceed_lat (s : State) : s.proceed.lat = s.lat := by
  rcases s.proceed_cases with ⟨-, h⟩ | ⟨-, h⟩ <;> simp [h]

/-- A line goes on to its next state with RES as it was, or is over in IDLE with status OK (R42). -/
theorem State.proceed_along {s : State} {ln : Line} {k : Nat} (h : (ln.states s.cfg)[k]? = some s.st) :
    (∀ n, (ln.states s.cfg)[k + 1]? = some n → s.proceed.st = n ∧ s.proceed.res = s.res) ∧
    ((ln.states s.cfg)[k + 1]? = none → s.proceed.st = .idle ∧ s.proceed.res.status = .ok) := by
  by_cases hi : nextOnSuccess s.st = .idle
  · have hlen := Line.length_states_of_last h hi
    rw [List.getElem?_eq_none hlen.le, State.proceed_of_last hi]
    exact ⟨nofun, fun _ => ⟨rfl, rfl⟩⟩
  · rw [Line.getElem?_succ_of_more h hi, State.proceed_of_more hi]
    exact ⟨fun _ hn => ⟨Option.some.inj hn, rfl⟩, nofun⟩

/-- Settles O20: the step is the answer's, which is latched before the line goes on. -/
theorem successAdvancesAlongTheLine : Obligations.SuccessAdvancesAlongTheLine := by
  intro s ln k r y is hbusy hpos hreq hin hok
  let u := (State.record { s with inputs := is } r (answerOf r y)).latchAnswer (answerOf r y)
  have hlat : u.lat = if s.st = .fRd then { s.lat with oldMode := y.byte } else s.lat :=
    State.latchAnswer_lat (s := State.record { s with inputs := is } r (answerOf r y)) hreq hok
  have hcfg : u.cfg = s.cfg := by simp [u]
  have hst : u.st = s.st := by simp [u]
  have hres : u.res = s.res := by simp [u]
  obtain ⟨hmore, hlast⟩ := State.proceed_along (s := u) (ln := ln) (k := k) (by rw [hcfg, hst, hpos])
  rw [hcfg, hres] at hmore
  rw [hcfg] at hlast
  refine ⟨u.proceed, ?_, by simp [u], by simp [u], by simp [u], by simp [u], ?_, hmore, hlast⟩
  · rw [step_of_answer hbusy.cfgWf hreq hin, State.receive_of_isSuccess hok]
  · rw [State.proceed_lat, hlat]

/-! ## A running command ends -/

/-- How many answers a running command can still wait for. -/
def remainingAnswers : FsmState → Nat
  | .idle => 0
  | .iProbe => 3
  | .rWr => 2
  | .rDly => 1
  | .fRd => 6
  | .fSleep => 5
  | .fPre => 4
  | .fWake => 3
  | .fDly => 2
  | .fRestart => 1
  | .pB0 => 4
  | .pB1 => 3
  | .pB2 => 2
  | .pB3 => 1
  | .pBurst => 1

/-- Each success along a line uses one of them up (R42). -/
theorem remainingAnswers_nextOnSuccess {p : FsmState} (h : p ≠ .idle) :
    remainingAnswers (nextOnSuccess p) + 1 = remainingAnswers p := by
  cases p with
  | idle => exact absurd rfl h
  | _ => rfl

theorem remainingAnswers_le_six (p : FsmState) : remainingAnswers p ≤ 6 := by
  cases p <;> decide

/-- A busy step that takes an answer ends the command or goes on to the next state of its line. -/
theorem State.Busy.step_answer {s : State} (h : s.Busy) {y : Reply} {is : List Input}
    (hin : s.inputs = .answer y :: is) :
    ∃ t, step s = .next t ∧ t.inputs = is ∧ t.cfg = s.cfg ∧ (t.st = .idle ∨ t.st = nextOnSuccess s.st) := by
  obtain ⟨r, hr⟩ := Option.ne_none_iff_exists'.1 (mt (State.request_eq_none_iff s).1 h.notIdle)
  refine ⟨_, step_of_answer h.cfgWf hr hin, by simp, by simp, ?_⟩
  exact (State.receive_st _ _).imp_right And.left

/-- With `n` answers at least as many as the command waits for, it is over within `n` of them. -/
theorem State.Busy.ends_within {n : Nat} {s : State} (h : s.Busy) (hn : remainingAnswers s.st ≤ n)
    {ys : List Reply} {is : List Input} (hin : s.inputs = ys.map Input.answer ++ is) (hys : n ≤ ys.length) :
    ∃ k t, k ≤ n ∧ run k s = .next t ∧ t.st = .idle ∧ t.inputs = (ys.drop k).map Input.answer ++ is := by
  induction n generalizing s ys with
  | zero =>
    have := remainingAnswers_nextOnSuccess h.notIdle
    omega
  | succ n ih =>
    obtain ⟨y, ys, rfl⟩ := List.exists_cons_of_length_pos (Nat.zero_lt_of_lt hys)
    obtain ⟨t, hstep, htin, htcfg, hidle | hnext⟩ := h.step_answer hin
    · exact ⟨1, t, by omega, by rw [run_succ hstep, run_zero], hidle, htin⟩
    · by_cases hti : t.st = .idle
      · exact ⟨1, t, by omega, by rw [run_succ hstep, run_zero], hti, htin⟩
      · have hrem := remainingAnswers_nextOnSuccess h.notIdle
        obtain ⟨k, u, hk, hrun, hui, huin⟩ := ih (s := t) ⟨htcfg ▸ h.cfgWf, hti⟩ (by rw [hnext]; omega) htin
          (by simpa using hys)
        exact ⟨k + 1, u, by omega, by rw [run_succ hstep, hrun], hui, huin⟩

/-- Settles O30: no state waits for more than six answers. -/
theorem everyCommandEndsWithinSixAnswers : Obligations.EveryCommandEndsWithinSixAnswers :=
  fun s _ _ hbusy hin hlen => hbusy.ends_within (remainingAnswers_le_six s.st) hin hlen

end Sys2Proof.Machine
end

/-! # The invariant of PMC

A step puts PMC in IDLE with nothing recorded, starts a line, or takes an answer. An answer on a line is first
recorded and latched (`State.Answered`), and then the command completes or the line goes on. -/

section
namespace Sys2Proof.Machine

/-! ## The prescale byte is within its bounds -/

theorem Cfg.wf4_of_wf {c : Cfg} (h : c.wf = true) : c.wf4 = true := by
  simp only [Cfg.wf, Bool.and_eq_true] at h
  obtain ⟨⟨⟨⟨-, h4⟩, -⟩, -⟩, -⟩ := h
  exact h4

theorem clampInt_bounds (v : Int) {lo hi : Int} (h : lo ≤ hi) :
    lo ≤ clampInt v lo hi ∧ clampInt v lo hi ≤ hi := by
  unfold clampInt
  omega

/-- The conversion to a byte (R145) loses nothing of a value clamped to the bounds. -/
theorem computePrescale_bounds {c : Cfg} (fc : Frac) (h : c.wf4 = true) :
    c.prescaleMin.toNat ≤ (computePrescale c fc).toNat ∧
      (computePrescale c fc).toNat ≤ c.prescaleMax.toNat := by
  have hle : c.prescaleMin.toNat ≤ c.prescaleMax.toNat := of_decide_eq_true h
  obtain ⟨hlo, hhi⟩ := clampInt_bounds (roundedQuotient c fc - 1) (Int.ofNat_le.2 hle)
  have hmax := c.prescaleMax.isLt
  simp only [computePrescale, BitVec.toNat_ofInt]
  omega

/-! ## States that meet the invariant -/

/-- IDLE with nothing recorded. -/
theorem State.Inv.of_fresh {s : State} (hw : s.cfg.wf = true) (hi : s.st = .idle) (ht : s.trace = []) :
    s.Inv where
  cfgWf := hw
  running h := absurd hi h
  completed _ := .inl ht
  preBounds h := absurd (hi ▸ h) (Line.idle_notMem_states _ _)

/-- IDLE after a command has completed. -/
theorem State.Inv.of_completed {s : State} {ln : Line} {earlier : List Txn} {last : Txn}
    (hw : s.cfg.wf = true) (hi : s.st = .idle) (h : s.Completed ln earlier last) : s.Inv where
  cfgWf := hw
  running hb := absurd hi hb
  completed _ := .inr ⟨ln, earlier, last, h⟩
  preBounds hm := absurd (hi ▸ hm) (Line.idle_notMem_states _ _)

/-- On a line, with `L.PRE` in bounds where it matters. -/
theorem State.Inv.of_running {s : State} {ln : Line} (hw : s.cfg.wf = true) (h : s.Running ln)
    (hpre : s.st ∈ Line.setfreq.states s.cfg →
      s.cfg.prescaleMin.toNat ≤ s.lat.pre.toNat ∧ s.lat.pre.toNat ≤ s.cfg.prescaleMax.toNat) : s.Inv where
  cfgWf := hw
  running _ := ⟨ln, h⟩
  completed hi := absurd (hi ▸ List.mem_of_getElem? h.position) (Line.idle_notMem_states _ _)
  preBounds := hpre

/-- The invariant does not speak of the ports. -/
theorem State.Inv.setPorts {s : State} (h : s.Inv) (offers : List CmdWord) (inputs : List Input) :
    State.Inv { s with offers := offers, inputs := inputs } where
  cfgWf := h.cfgWf
  running hb :=
    let ⟨ln, hr⟩ := h.running hb
    ⟨ln, hr.position, hr.inOrder, hr.succeeded, hr.snapshot⟩
  completed hi := (h.completed hi).imp_right fun ⟨ln, earlier, last, hc⟩ =>
    ⟨ln, earlier, last, hc.parts, hc.inOrder, hc.succeeded, hc.onError, hc.onAbsent, hc.onSuccess⟩
  preBounds := h.preBounds

/-- On a line the outstanding request is the next one, so it is enough that the answered ones are the first. -/
theorem State.Running.of_answered {s : State} {ln : Line}
    (hpos : (ln.states s.cfg)[s.trace.length]? = some s.st)
    (hreq : s.trace.map Txn.request = (ln.requests s.cfg s.lat).take s.trace.length)
    (hok : ∀ t ∈ s.trace, t.answer.isSuccess = true)
    (hsnap : ∀ t ∈ s.trace, ∀ b, t.answer = .okByte b → b = s.lat.oldMode) : s.Running ln where
  position := hpos
  inOrder := by rw [List.take_add_one, Line.getElem?_requests hpos, hreq]
  succeeded := hok
  snapshot := hsnap

/-! ## A command starts -/

/-- A line at its first state, with nothing recorded. -/
theorem State.Running.of_first {s : State} {ln : Line} (hpos : (ln.states s.cfg)[0]? = some s.st)
    (ht : s.trace = []) : s.Running ln :=
  .of_answered (by simpa [ht] using hpos) (by simp [ht]) (by simp [ht]) (by simp [ht])

/-- A channel write starts a line in either form (R178, R179). -/
theorem State.Inv.startChannelWrite {s : State} (hw : s.cfg.wf = true) (ht : s.trace = []) (ch : BitVec 4)
    (on off : BitVec 12) : (s.startChannelWrite ch on off).Inv := by
  cases hb : s.cfg.burst with
  | false =>
    exact .of_running (ln := .channel) hw (.of_first (by simp [Line.states, hb]) ht) (by simp [Line.states, hb])
  | true =>
    exact .of_running (ln := .channel) hw (.of_first (by simp [Line.states, hb]) ht) (by simp [Line.states, hb])

/-- Every command accepted in IDLE starts its line or completes at once. -/
theorem CommandRun.inv {i : Instr} {run : State → State} (h : CommandRun i run) {s : State}
    (hw : s.cfg.wf = true) (ht : s.trace = []) : (run s).Inv := by
  cases h with
  | violation _ => exact .of_fresh hw rfl ht
  | reset => exact .of_running (ln := .reset) hw (.of_first rfl ht) (by simp [Line.states])
  | init => exact .of_running (ln := .init) hw (.of_first rfl ht) (by simp [Line.states])
  | setfreq _ =>
    exact .of_running (ln := .setfreq) hw (.of_first rfl ht) fun _ => computePrescale_bounds _ (Cfg.wf4_of_wf hw)
  | setpwm on off _ => exact .startChannelWrite hw ht _ _ _
  | setthr pct _ => exact .startChannelWrite hw ht _ _ _

theorem State.Inv.exec {s t : State} {i : Instr} (h : s.Inv) (he : exec i s = .next t) : t.Inv := by
  rcases exec_next he with ⟨-, rfl⟩ | ⟨run, hrun, -, rfl⟩
  · exact h
  · exact hrun.inv h.cfgWf rfl

/-! ## An answer on a line -/

/-- Line `ln` has been answered at its place `earlier.length`: the answer is recorded and latched, and `st` is
still the state that was answered. -/
structure State.Answered (s : State) (ln : Line) (earlier : List Txn) (last : Txn) : Prop where
  parts : s.trace = earlier ++ [last]
  position : (ln.states s.cfg)[earlier.length]? = some s.st
  inOrder : s.trace.map Txn.request = (ln.requests s.cfg s.lat).take s.trace.length
  succeeded : ∀ t ∈ earlier, t.answer.isSuccess = true
  snapshot : ∀ t ∈ s.trace, ∀ b, t.answer = .okByte b → b = s.lat.oldMode

/-- An answer that is no byte leaves the latches, so the line stands as it did. -/
theorem State.Running.record {s : State} {ln : Line} {r : Request} {a : Answer} (h : s.Running ln)
    (hr : s.request = some r) (ha : ∀ b, a ≠ .okByte b) : (s.record r a).Answered ln s.trace ⟨r, a⟩ where
  parts := rfl
  position := h.position
  inOrder := by simpa [hr] using h.inOrder
  succeeded := h.succeeded
  snapshot t ht b hb := by
    rcases List.mem_append.1 ht with ht | ht
    · exact h.snapshot t ht b hb
    · rw [List.mem_singleton.1 ht] at hb
      exact absurd hb (ha b)

/-- The MODE1 read is the first of its line, and its byte is the snapshot (R152). -/
theorem State.Running.record_read {s : State} {ln : Line} {r : Request} (h : s.Running ln)
    (hf : s.st = .fRd) (hr : s.request = some r) (b : Byte) :
    ((s.record r (.okByte b)).latchOldMode b).Answered ln s.trace ⟨r, .okByte b⟩ := by
  obtain ⟨rfl, hlen⟩ := Line.eq_of_fRd (hf ▸ h.position)
  have ht : s.trace = [] := List.eq_nil_of_length_eq_zero hlen
  have hin : [r] = [Request.rd1 (dev8 s.cfg) s.cfg.mode1Addr] := by
    simpa [hr, ht, Line.requests, setfreqRequests] using h.inOrder
  refine ⟨rfl, h.position, ?_, h.succeeded, ?_⟩
  · simpa [ht, Line.requests, setfreqRequests] using hin
  · simp [ht]

/-- Whatever the transport answers to the request of a running command. -/
theorem State.Running.answered {s : State} {ln : Line} {r : Request} (h : s.Running ln)
    (hr : s.request = some r) (y : Reply) :
    ((s.record r (answerOf r y)).latchAnswer (answerOf r y)).Answered ln s.trace ⟨r, answerOf r y⟩ := by
  by_cases hb : ∃ b, answerOf r y = .okByte b
  · obtain ⟨b, hb⟩ := hb
    obtain ⟨d, a, rfl⟩ := answerOf_eq_okByte hb
    rw [hb]
    exact h.record_read (State.st_of_request_rd1 hr) hr b
  · have hne : ∀ b, answerOf r y ≠ .okByte b := fun b he => hb ⟨b, he⟩
    rw [State.latchAnswer_of_ne_okByte _ hne]
    exact h.record hr hne

section
variable {s : State} {ln : Line} {earlier : List Txn} {last : Txn}

/-- Completing an answered line leaves its trace and latches; RES has to tell of the last answer. -/
theorem State.Answered.complete (h : s.Answered ln earlier last) {k : Status} {d : Option TransportError}
    (herr : ∀ e, last.answer = .err e → (s.complete k d).res = ⟨.busError, e⟩)
    (habs : last.answer = .present false → k = .deviceNotReady)
    (hok : last.answer.isSuccess = true → k = .ok ∧ nextOnSuccess s.st = .idle) :
    (s.complete k d).Completed ln earlier last where
  parts := by simpa using h.parts
  inOrder := by simpa using h.inOrder
  succeeded := h.succeeded
  onError := herr
  onAbsent ha := by simpa using habs ha
  onSuccess ha := by
    obtain ⟨hk, hlast⟩ := hok ha
    have hlen := Line.length_states_of_last h.position hlast
    simp [hk, h.parts, Line.length_requests, hlen]

/-- After a success the line goes on to its next state. -/
theorem State.Answered.goesOn (h : s.Answered ln earlier last) (hok : last.answer.isSuccess = true)
    (hn : nextOnSuccess s.st ≠ .idle) : (s.enter (nextOnSuccess s.st)).Running ln := by
  refine .of_answered ?_ h.inOrder ?_ h.snapshot
  · simpa [h.parts] using Line.getElem?_succ_of_more h.position hn
  · intro t ht
    rw [State.enter_trace, h.parts] at ht
    rcases List.mem_append.1 ht with ht | ht
    · exact h.succeeded t ht
    · rw [List.mem_singleton.1 ht]; exact hok

end

/-- SETFREQ's states are entered from one another only (R42): `L.PRE` is in bounds from its start on. -/
theorem mem_setfreq_of_nextOnSuccess {c : Cfg} {p : FsmState}
    (h : nextOnSuccess p ∈ Line.setfreq.states c) : p ∈ Line.setfreq.states c := by
  cases p <;> simp [Line.states, nextOnSuccess] at h ⊢

/-- An answer to the outstanding request keeps the invariant. -/
theorem State.Inv.receive {s : State} {r : Request} (h : s.Inv) (hr : s.request = some r) (y : Reply) :
    ((s.record r (answerOf r y)).receive (answerOf r y)).Inv := by
  have hb : s.st ≠ .idle := fun hi => by simp [(State.request_eq_none_iff s).2 hi] at hr
  obtain ⟨ln, hrun⟩ := h.running hb
  have hans := hrun.answered hr y
  have hcases := (s.record r (answerOf r y)).receive_cases (answerOf r y)
  generalize answerOf r y = a at hans hcases ⊢
  rcases hcases with ⟨e, rfl, ht⟩ | ⟨rfl, ht⟩ | ⟨ha, hn, ht⟩ | ⟨ha, hn, ht⟩ <;> rw [ht]
  · refine .of_completed h.cfgWf rfl (State.Answered.complete hans ?_ nofun nofun)
    rintro _ ⟨⟩
    rfl
  · exact .of_completed h.cfgWf rfl (State.Answered.complete hans nofun (fun _ => rfl) nofun)
  · refine .of_completed (by simpa using h.cfgWf) rfl (hans.complete ?_ ?_ fun _ => ⟨rfl, by simpa using hn⟩)
    · rintro _ rfl; cases ha
    · rintro rfl; cases ha
  · have hgo := hans.goesOn ha (by simpa using hn)
    rw [State.latchAnswer_st] at hgo
    refine .of_running (by simpa using h.cfgWf) hgo fun hm => ?_
    have hmem : s.st ∈ Line.setfreq.states s.cfg := mem_setfreq_of_nextOnSuccess (by simpa using hm)
    simpa using h.preBounds hmem

/-- Settles O32: acceptance starts a line, an answer completes it or goes on along it, and no other event
touches the line but a block reset, which leaves nothing recorded. -/
theorem stepKeepsInv : Obligations.StepKeepsInv := by
  intro s t hinv h
  rcases step_next h with ⟨w, ws, -, -, he⟩ | ⟨w, is, -, rfl⟩ | ⟨y, is, -, -, hres⟩ | ⟨y, is, -, rfl⟩ |
    ⟨is, -, rfl⟩ | ⟨-, rfl⟩
  · exact (hinv.setPorts ws s.inputs).exec he
  · exact hinv.setPorts _ is
  · obtain ⟨-, r, hr, rfl⟩ := respond_next hres
    exact (hinv.setPorts s.offers is).receive hr y
  · exact hinv.setPorts s.offers is
  · exact .of_fresh hinv.cfgWf rfl rfl
  · exact hinv

/-- Settles O33: the reset state is IDLE with nothing recorded, under a CFG that is well formed. -/
theorem resetMeetsInv : Obligations.ResetMeetsInv :=
  .of_fresh Sys2Proof.Tests.test_default_is_wellFormed.1 rfl rfl

end Sys2Proof.Machine
end

/-! # Dead latches are never read (R38)

Two states that agree on the live latches have the same outstanding request, so the same events happen in both; and
what an event makes live is written by it or was live before. -/

section
namespace Sys2Proof.Machine

/-! ## What depends on the live latches alone -/

/-- The outstanding request reads live latches only (R34, R42). -/
theorem State.SameLive.request_eq {s t : State} (h : s.SameLive t) : s.request = t.request := by
  obtain ⟨hcfg, hst, -, -, -, hlat⟩ := h
  unfold State.request
  rw [← hst, ← hcfg]
  generalize s.st = p at hlat
  cases p with
  | idle | iProbe | rWr | rDly | fRd | fDly => rfl
  | fSleep =>
    obtain ⟨hold, -⟩ := hlat
    rw [hold]
  | fPre =>
    obtain ⟨-, hpre⟩ := hlat
    rw [hpre]
  | fWake | fRestart =>
    have hold : s.lat.oldMode = t.lat.oldMode := hlat
    rw [hold]
  | pB0 | pB1 | pB2 | pB3 | pBurst =>
    obtain ⟨hch, hon, hoff⟩ := hlat
    simp only [hch, hon, hoff]

/-- The latches live after a success were live before, but for `L.OLDMODE` after the MODE1 read (R35). -/
theorem liveLatchesAgree_nextOnSuccess {p : FsmState} {l k : Latches} (h : liveLatchesAgree p l k)
    (hread : p = .fRd → l.oldMode = k.oldMode) : liveLatchesAgree (nextOnSuccess p) l k := by
  cases p with
  | fRd => exact ⟨hread rfl, h⟩
  | fPre => exact h.1
  | idle | iProbe | rWr | rDly | fRestart | pB3 | pBurst => trivial
  | fSleep | fWake | fDly | pB0 | pB1 | pB2 => exact h

/-! ## Operations on two states that agree on the live latches -/

/-- In IDLE no latch is live. -/
theorem State.SameLive.of_idle {s t : State} (hcfg : s.cfg = t.cfg) (hs : s.st = .idle) (ht : t.st = .idle)
    (hoffers : s.offers = t.offers) (hinputs : s.inputs = t.inputs) (htrace : s.trace = t.trace) :
    s.SameLive t :=
  ⟨hcfg, hs.trans ht.symm, hoffers, hinputs, htrace, by rw [hs]; trivial⟩

section
variable {s t : State} (h : s.SameLive t)
include h

theorem State.SameLive.setOffers {ws vs : List CmdWord} (hw : ws = vs) :
    State.SameLive { s with offers := ws } { t with offers := vs } :=
  ⟨h.cfg, h.st, hw, h.inputs, h.trace, h.latches⟩

theorem State.SameLive.setInputs (is : List Input) :
    State.SameLive { s with inputs := is } { t with inputs := is } :=
  ⟨h.cfg, h.st, h.offers, rfl, h.trace, h.latches⟩

theorem State.SameLive.record (r : Request) (a : Answer) : (s.record r a).SameLive (t.record r a) :=
  ⟨h.cfg, h.st, h.offers, h.inputs, congrArg (· ++ _) h.trace, h.latches⟩

theorem State.SameLive.complete (k : Status) (d : Option TransportError) :
    (s.complete k d).SameLive (t.complete k d) :=
  .of_idle (by simpa using h.cfg) (by simp) (by simp) (by simpa using h.offers) (by simpa using h.inputs)
    (by simpa using h.trace)

theorem State.SameLive.blockReset : s.blockReset.SameLive t.blockReset :=
  .of_idle h.cfg rfl rfl h.offers h.inputs rfl

/-- Entering a state whose live latches agree. -/
theorem State.SameLive.enter {n : FsmState} (hn : liveLatchesAgree n s.lat t.lat) :
    (s.enter n).SameLive (t.enter n) :=
  ⟨h.cfg, rfl, h.offers, h.inputs, h.trace, hn⟩

theorem State.SameLive.latchOldMode (b : Byte) : (s.latchOldMode b).SameLive (t.latchOldMode b) := by
  refine ⟨h.cfg, h.st, h.offers, h.inputs, h.trace, ?_⟩
  have hlat := h.latches
  cases hs : s.st <;> simp_all [liveLatchesAgree]

/-- Both forms of the channel write latch all they read (R37, R176). -/
theorem State.SameLive.startChannelWrite (ch : BitVec 4) (on off : BitVec 12) :
    (s.startChannelWrite ch on off).SameLive (t.startChannelWrite ch on off) := by
  refine ⟨h.cfg, by simp [h.cfg], h.offers, h.inputs, h.trace, ?_⟩
  rw [State.startChannelWrite_st]
  split <;> exact ⟨rfl, rfl, rfl⟩

/-- A command latches what its line reads, from its operands and CFG. -/
theorem CommandRun.sameLive {i : Instr} {run : State → State} (hrun : CommandRun i run) :
    (run s.clearTrace).SameLive (run t.clearTrace) := by
  have hclear : s.clearTrace.SameLive t.clearTrace := ⟨h.cfg, h.st, h.offers, h.inputs, rfl, h.latches⟩
  cases hrun with
  | violation _ => exact hclear.complete .contractViolation none
  | reset => exact hclear.enter trivial
  | init => exact hclear.enter trivial
  | setfreq _ =>
    exact ⟨h.cfg, rfl, h.offers, h.inputs, rfl, congrArg (computePrescale · _) h.cfg⟩
  | setpwm on off _ => exact hclear.startChannelWrite _ _ _
  | setthr pct _ =>
    simp only [hclear.cfg]
    exact hclear.startChannelWrite _ _ _

theorem exec_sameLive (i : Instr) : outcomesAgree State.SameLive (exec i s) (exec i t) := by
  obtain ⟨run, hrun, he⟩ := exec_eq_accept_run i
  rw [he, he]
  rcases hw : s.cfg.wf with _ | _
  · rw [accept_of_illFormed hw, accept_of_illFormed (h.cfg ▸ hw)]
    rfl
  · by_cases hi : s.st = .idle
    · rw [accept_of_ready hw hi, accept_of_ready (h.cfg ▸ hw) (h.st ▸ hi)]
      exact CommandRun.sameLive h hrun
    · rw [accept_of_busy hw hi, accept_of_busy (h.cfg ▸ hw) (h.st ▸ hi)]
      exact h

end

/-! ## An answer to two states that agree on the live latches -/

/-- They agree on the live latches, and if a command is over its host is told the same (R43). -/
structure State.SameReport (s t : State) : Prop where
  live : s.SameLive t
  report : s.st = .idle → sameResult s.res t.res

/-- A completion reports its status, and the detail where it is a bus error's. -/
theorem sameResult_complete (s t : State) {k : Status} {d : Option TransportError}
    (hd : k = .busError → d ≠ none) : sameResult (s.complete k d).res (t.complete k d).res := by
  cases d with
  | some e => exact ⟨rfl, fun _ => rfl⟩
  | none => exact ⟨rfl, fun hk => absurd rfl (hd hk)⟩

theorem State.SameLive.report_complete {s t : State} (h : s.SameLive t) {k : Status}
    {d : Option TransportError} (hd : k = .busError → d ≠ none) :
    (s.complete k d).SameReport (t.complete k d) :=
  ⟨h.complete k d, fun _ => sameResult_complete s t hd⟩

/-- A line goes on alike, if the byte of a MODE1 read has been latched in both. -/
theorem State.SameLive.report_proceed {s t : State} (h : s.SameLive t)
    (hread : s.st = .fRd → s.lat.oldMode = t.lat.oldMode) : s.proceed.SameReport t.proceed := by
  by_cases hn : nextOnSuccess s.st = .idle
  · rw [State.proceed_of_last hn, State.proceed_of_last (h.st ▸ hn)]
    exact h.report_complete nofun
  · rw [State.proceed_of_more hn, State.proceed_of_more (h.st ▸ hn), ← h.st]
    exact ⟨h.enter (liveLatchesAgree_nextOnSuccess h.latches hread), fun hi => absurd hi hn⟩

/-- An answer to the request outstanding in both. -/
theorem State.SameLive.report_receive {s t : State} (h : s.SameLive t) {r : Request} (hr : s.request = some r)
    (y : Reply) : (s.receive (answerOf r y)).SameReport (t.receive (answerOf r y)) := by
  rcases hok : (answerOf r y).isSuccess with _ | _
  · rcases Answer.failure_cases hok with ⟨e, ha⟩ | ha
    · rw [ha]; exact h.report_complete (k := .busError) (d := some e) fun _ => nofun
    · rw [ha]; exact h.report_complete (k := .deviceNotReady) (d := none) nofun
  · rcases State.success_cases hr hok with ⟨-, ha⟩ | ⟨hf, ha⟩
    · rw [ha]; exact (h.latchOldMode y.byte).report_proceed fun _ => rfl
    · rw [State.receive_of_isSuccess hok, State.receive_of_isSuccess hok,
        State.latchAnswer_of_ne_okByte s ha, State.latchAnswer_of_ne_okByte t ha]
      exact h.report_proceed fun hs => absurd hs hf

theorem respond_sameLive {s t : State} (h : s.SameLive t) (y : Reply) :
    outcomesAgree State.SameReport (respond s y) (respond t y) := by
  rcases hw : s.cfg.wf with _ | _
  · rw [respond_of_illFormed y hw, respond_of_illFormed y (h.cfg ▸ hw)]
    rfl
  · rcases hr : s.request with _ | r
    · rw [respond_of_noRequest y hw hr, respond_of_noRequest y (h.cfg ▸ hw) (h.request_eq ▸ hr)]
      rfl
    · rw [respond_of_request y hw hr, respond_of_request y (h.cfg ▸ hw) (h.request_eq ▸ hr)]
      exact (h.record r (answerOf r y)).report_receive (r := r) hr y

/-! ## A step -/

/-- Outcomes that agree in a relation agree in every weaker one. -/
theorem outcomesAgree_mono {R Q : State → State → Prop} (hRQ : ∀ s t, R s t → Q s t)
    {o p : Host.Outcome State Fault Refusal} (h : outcomesAgree R o p) : outcomesAgree Q o p := by
  match o, p, h with
  | .next _, .next _, h => exact hRQ _ _ h
  | .fault _, .fault _, h => exact h
  | .refused _, .refused _, h => exact h

/-- Settles O38: by the case split of a step; the request is the same in both, an answer is taken alike, and only an
answer or a block reset can complete a command. -/
theorem deadLatchesAreNeverRead : Obligations.DeadLatchesAreNeverRead := by
  intro s t h
  rcases step_cases s with ⟨w, ws, hi, ho, he⟩ | ⟨i, is, hc, hin, he⟩ | ⟨hc, hin, he⟩
  · rw [he, step_of_offer (h.st ▸ hi) (h.offers ▸ ho)]
    exact outcomesAgree_mono (fun _ _ hlive => ⟨hlive, fun hb => absurd hi hb⟩)
      (exec_sameLive (h.setOffers rfl) (decode w))
  · rw [he, step_of_input (h.st ▸ h.offers ▸ hc) (h.inputs ▸ hin)]
    have hports := h.setInputs is
    cases i with
    | offer w => exact ⟨hports.setOffers (congrArg (· ++ [w]) h.offers), fun hb hi => absurd hi hb⟩
    | answer y =>
      exact outcomesAgree_mono (fun _ _ hrep => ⟨hrep.live, fun _ hi _ => hrep.report hi⟩)
        (respond_sameLive hports y)
    | lateAnswer y => exact ⟨hports, fun hb hi => absurd hi hb⟩
    | blockReset => exact ⟨hports.blockReset, fun _ _ hnr => absurd hin (hnr is)⟩
  · rw [he, step_of_nothing (h.st ▸ h.offers ▸ hc) (h.inputs ▸ hin)]
    exact ⟨h, fun hb hi => absurd hi hb⟩

end Sys2Proof.Machine
end

/-! # Registers, transactions and E_ref

The channel registers as plain sums, what a transaction stores in E_ref, and the run of a whole line of transactions
that E_ref answers with success. -/

section
namespace Sys2Proof.Machine

/-- Settles O7: the model's own law of a step with nothing to take. -/
theorem pmcWaitsWhenNothingHappens : Obligations.PmcWaitsWhenNothingHappens :=
  fun _ hc hin => step_of_nothing hc hin

/-! ## The registers of a channel -/

theorem Cfg.wf2_of_wf {c : Cfg} (h : c.wf = true) : c.wf2 = true := by
  simp only [Cfg.wf, Bool.and_eq_true] at h
  obtain ⟨⟨⟨⟨⟨⟨-, h2⟩, -⟩, -⟩, -⟩, -⟩, -⟩ := h
  exact h2

/-- The channel window fits 8-bit register addresses (R24). -/
theorem Cfg.window_le_of_wf2 {c : Cfg} (h : c.wf2 = true) : c.led0OnLAddr.toNat + 63 ≤ 255 :=
  of_decide_eq_true h

/-- Under WF2 the channel window is not left, so the sum of R57 does not wrap. -/
theorem channelReg_toNat {c : Cfg} (h : c.wf2 = true) (ch : BitVec 4) {k : Nat} (hk : k ≤ 3) :
    (channelReg c ch k).toNat = c.led0OnLAddr.toNat + 4 * ch.toNat + k := by
  have hwindow := Cfg.window_le_of_wf2 h
  have hch := ch.isLt
  simp only [channelReg, stride, BitVec.toNat_ofNat]
  omega

/-- The registers of a channel follow one another. -/
theorem channelReg_zero_add (c : Cfg) (ch : BitVec 4) (k : Nat) :
    channelReg c ch 0 + BitVec.ofNat 8 k = channelReg c ch k :=
  BitVec.ofNat_add_ofNat _ _

/-- Byte `k` of a burst goes to register `k` of the channel (R59, R179). -/
theorem burstAddr_channelReg (c : Cfg) (ch : BitVec 4) (k : Nat) :
    burstAddr (channelReg c ch 0) k = (channelReg c ch k).toNat :=
  congrArg BitVec.toNat (channelReg_zero_add c ch k)

/-- Settles O53: the four burst addresses are the four registers of the channel. -/
theorem burstStoresAsFourSingleWrites : Obligations.BurstStoresAsFourSingleWrites := by
  intro c m d ch b0 b1 b2 b3 _
  simp only [Memory.store, burstAddr_channelReg]

/-! ## The registers PMC names -/

/-- The registers the outstanding request names, by the state that issues it (R42, R56). -/
theorem State.mem_regs_of_request {s : State} {r : Request} (h : s.request = some r) {a : Byte}
    (ha : a ∈ r.regs) :
    a = s.cfg.mode1Addr ∨ a = s.cfg.prescaleAddr ∨ ∃ k ≤ 3, a = channelReg s.cfg s.lat.ch k := by
  unfold State.request at h
  cases hst : s.st <;> simp only [hst, Option.some.injEq, reduceCtorEq] at h <;> subst h
  case iProbe | rDly | fDly => cases ha
  case rWr | fRd | fSleep | fWake | fRestart => exact .inl (List.mem_singleton.1 ha)
  case fPre => exact .inr (.inl (List.mem_singleton.1 ha))
  case pB0 => exact .inr (.inr ⟨0, by decide, List.mem_singleton.1 ha⟩)
  case pB1 => exact .inr (.inr ⟨1, by decide, List.mem_singleton.1 ha⟩)
  case pB2 => exact .inr (.inr ⟨2, by decide, List.mem_singleton.1 ha⟩)
  case pB3 => exact .inr (.inr ⟨3, by decide, List.mem_singleton.1 ha⟩)
  case pBurst =>
    simp only [Request.regs, List.mem_cons, List.not_mem_nil, or_false] at ha
    refine .inr (.inr ?_)
    rcases ha with rfl | rfl | rfl | rfl
    · exact ⟨0, by decide, rfl⟩
    · exact ⟨1, by decide, channelReg_zero_add _ _ 1⟩
    · exact ⟨2, by decide, channelReg_zero_add _ _ 2⟩
    · exact ⟨3, by decide, channelReg_zero_add _ _ 3⟩

/-- Settles O36: the registers named are those of `State.mem_regs_of_request`, a channel's are plain sums, and F_RD
is the one state that reads. -/
theorem pmcAddressesOnlyItsRegisters : Obligations.PmcAddressesOnlyItsRegisters := by
  intro s r hw hr
  refine ⟨fun a ha => ?_, ?_⟩
  · refine (State.mem_regs_of_request hr ha).imp_right (.imp_right ?_)
    rintro ⟨k, hk, rfl⟩
    exact ⟨s.lat.ch.toNat, k, by omega, hk, channelReg_toNat (Cfg.wf2_of_wf hw) s.lat.ch hk⟩
  · rintro d a rfl
    have hread : s.request = some (.rd1 (dev8 s.cfg) s.cfg.mode1Addr) := by
      simp only [State.request, State.st_of_request_rd1 hr]
    cases hr.symm.trans hread
    rfl

/-! ## What a transaction stores in E_ref -/

/-- Store a list of (address, byte) pairs, in order. -/
def Memory.writeAll (m : Memory) (ws : List (Byte × Byte)) : Memory :=
  ws.foldl (fun m p => m.write p.1.toNat p.2) m

/-- E_ref stores what the request sends to the chip (R53). -/
theorem Memory.store_eq_writeAll (m : Memory) (r : Request) : m.store r = m.writeAll r.writes := by
  cases r with
  | wrn _ a b0 b1 b2 b3 => simp [Memory.store, Memory.writeAll, Request.writes, burstAddr]
  | probe _ _ => rfl
  | rd1 _ _ => rfl
  | wr1 _ _ _ => rfl
  | delay _ => rfl

theorem Memory.read_writeAll_other {m : Memory} {ws : List (Byte × Byte)} {a : Nat}
    (h : ∀ p ∈ ws, p.1.toNat ≠ a) : (m.writeAll ws).read a = m.read a := by
  induction ws generalizing m with
  | nil => rfl
  | cons p ws ih =>
    obtain ⟨hp, hws⟩ := List.forall_mem_cons.1 h
    exact (ih hws).trans (Memory.read_write_other _ _ hp.symm)

/-- A transaction leaves every other byte of E_ref, whether it fails or not. -/
theorem Eref.read_after_other (e : Eref) {r : Request} {a : Nat} (h : ∀ p ∈ r.writes, p.1.toNat ≠ a) :
    (e.after r).reg.read a = e.reg.read a := by
  unfold Eref.after
  split
  · rfl
  · rw [Memory.store_eq_writeAll]
    exact Memory.read_writeAll_other h

/-- An outcome of PMC is kept beside the environment as it is. -/
theorem Bench.env_of_withEnv {env : Eref} {o : Host.Outcome State Fault Refusal} {b : Bench}
    (h : Bench.withEnv env o = .next b) : b.env = env := by
  cases o with
  | next s => cases h; rfl
  | fault f => cases h
  | refused r => cases h

/-- All that a step of the pair does to E_ref. -/
theorem Bench.step_next_env {b b' : Bench} (h : b.step = .next b') :
    (∃ r, b.pmc.request = some r ∧ b'.env = b.env.after r) ∨ (b.pmc.request = none ∧ b'.env = b.env) := by
  unfold Bench.step at h
  split at h
  · next r hr => exact .inl ⟨r, hr, Bench.env_of_withEnv h⟩
  · next hr => exact .inr ⟨hr, Bench.env_of_withEnv h⟩

/-- Settles O52: E_ref after a step is E_ref after the outstanding request, if there is one. -/
theorem transactionWritesOnlyItsBytes : Obligations.TransactionWritesOnlyItsBytes := by
  intro b b' hwf h
  rcases Bench.step_next_env h with ⟨r, hr, he⟩ | ⟨-, he⟩
  · rw [he]
    exact ⟨Eref.wf_after hwf r, fun a ha => Eref.read_after_other _ (ha r hr)⟩
  · rw [he]
    exact ⟨hwf, fun _ _ => rfl⟩

/-! ## A line that E_ref answers with success -/

@[simp] theorem Bench.run_zero (b : Bench) : b.run 0 = .next b := rfl

/-- A run of the pair whose first step answers a next state goes on from there. -/
theorem Bench.run_succ {k : Nat} {b b' : Bench} (h : b.step = .next b') : b.run (k + 1) = b'.run k := by
  simp only [Bench.run, h]

/-- With no request outstanding PMC steps alone. -/
theorem Bench.step_of_idle {b : Bench} {s : State} (hi : b.pmc.st = .idle)
    (h : Sys2Proof.Machine.step b.pmc = .next s) :
    b.step = .next { pmc := s, env := b.env } := by
  simp only [Bench.step, (State.request_eq_none_iff _).2 hi, h, Bench.withEnv]

/-- E_ref answers the outstanding request at once. -/
theorem Bench.step_of_request {b : Bench} {r : Request} (hw : b.pmc.cfg.wf = true) (hr : b.pmc.request = some r) :
    b.step = .next {
      pmc := (b.pmc.record r (answerOf r (b.env.reply r))).receive (answerOf r (b.env.reply r))
      env := b.env.after r } := by
  let s : State := { b.pmc with inputs := .answer (b.env.reply r) :: b.pmc.inputs }
  have hrs : s.request = some r := (State.request_congr rfl rfl rfl).trans hr
  have hstep := step_of_answer (s := s) (is := b.pmc.inputs) hw hrs rfl
  simp only [Bench.step, hr]
  exact congrArg (Bench.withEnv _) hstep

/-- A transaction not listed to fail is stored. -/
theorem Eref.after_reg_of_noFail {e : Eref} (h : e.fail = []) (r : Request) :
    (e.after r).reg = e.reg.store r := by
  simp [Eref.after, Eref.fails, h]

/-- With no failure listed only a probe can be answered otherwise than with success. -/
theorem Eref.reply_isSuccess {e : Eref} (h : e.fail = []) {r : Request}
    (hprobe : ∀ d t, r = .probe d t → e.present = true) : (answerOf r (e.reply r)).isSuccess = true := by
  cases r with
  | probe d t => exact hprobe d t rfl
  | rd1 d a => simp [answerOf, Eref.reply, Eref.fails, h, Answer.isSuccess]
  | wr1 d a b => simp [answerOf, Eref.reply, Eref.fails, h, Answer.isSuccess]
  | wrn d a b0 b1 b2 b3 => simp [answerOf, Eref.reply, Eref.fails, h, Answer.isSuccess]
  | delay ms => rfl

/-- A successful transaction that reads nothing: recorded, stored, and the line goes on (R42). -/
theorem Bench.step_of_success {b : Bench} {r : Request} (hw : b.pmc.cfg.wf = true) (hf : b.env.fail = [])
    (hr : b.pmc.request = some r) (hprobe : ∀ d t, r = .probe d t → b.env.present = true)
    (hread : ∀ d a, r ≠ .rd1 d a) :
    b.step = .next {
      pmc := (b.pmc.record r (answerOf r (b.env.reply r))).proceed
      env := b.env.after r } := by
  have hne : ∀ v, answerOf r (b.env.reply r) ≠ .okByte v := fun v hv =>
    let ⟨d, a, he⟩ := answerOf_eq_okByte hv
    hread d a he
  rw [Bench.step_of_request hw hr, State.receive_of_isSuccess (Eref.reply_isSuccess hf hprobe),
    State.latchAnswer_of_ne_okByte _ hne]

/-- From place `k` of a line on, with no failure listed and nothing left to read: the rest of the line is stored, in
order, and the command completes with OK. -/
theorem Bench.run_line {ln : Line} {rs : List Request} {b : Bench} {k : Nat} (hw : b.pmc.cfg.wf = true)
    (hf : b.env.fail = []) (hpos : (ln.states b.pmc.cfg)[k]? = some b.pmc.st)
    (hrs : (ln.requests b.pmc.cfg b.pmc.lat).drop k = rs)
    (hprobe : ∀ d t, .probe d t ∈ rs → b.env.present = true) (hread : ∀ d a, .rd1 d a ∉ rs) :
    ∃ t, b.run rs.length = .next t ∧ t.pmc.st = .idle ∧ t.pmc.res.status = .ok ∧
      t.env.reg = rs.foldl Memory.store b.env.reg := by
  induction rs generalizing b k with
  | nil =>
    have hk := (List.getElem?_eq_some_iff.1 hpos).1
    have hlen := ln.length_requests b.pmc
    have hend := List.drop_eq_nil_iff.1 hrs
    omega
  | cons r rs ih =>
    have hr : b.pmc.request = some r := by
      rw [← Line.getElem?_requests hpos, ← List.head?_drop, hrs]; rfl
    have hrest : (ln.requests b.pmc.cfg b.pmc.lat).drop (k + 1) = rs := by
      rw [← List.tail_drop, hrs]; rfl
    have hstep := Bench.step_of_success hw hf hr (fun d t he => hprobe d t (by simp [he]))
      (fun d a he => hread d a (by simp [he]))
    obtain ⟨hmore, hlast⟩ := State.proceed_along (s := b.pmc.record r (answerOf r (b.env.reply r))) hpos
    rw [List.length_cons, Bench.run_succ hstep, List.foldl_cons, ← Eref.after_reg_of_noFail hf r]
    rcases hnext : (ln.states b.pmc.cfg)[k + 1]? with _ | n
    · obtain rfl : rs = [] := by
        rw [← hrest, List.drop_eq_nil_iff, ln.length_requests b.pmc]
        exact List.getElem?_eq_none_iff.1 hnext
      exact ⟨_, rfl, (hlast hnext).1, (hlast hnext).2, rfl⟩
    · refine ih (k := k + 1) (by simpa using hw) hf ?_ (by simpa using hrest)
        (fun d t h => hprobe d t (List.mem_cons_of_mem _ h)) (fun d a h => hread d a (List.mem_cons_of_mem _ h))
      simpa [(hmore n hnext).1] using hnext

/-! ## The bytes of a channel -/

/-- The bytes of a count give it back (R59, R173, R175). -/
theorem countOf_bytes (n : BitVec 12) : countOf (lowByte n) (highByte n) = n := by
  apply BitVec.eq_of_getLsbD_eq
  intro i hi
  simp only [countOf, lowByte, highByte, BitVec.getLsbD_append, BitVec.getLsbD_extractLsb']
  by_cases hlow : i < 8
  · simp [hlow]
  · have hhigh : i - 8 < 4 := by omega
    have hsum : 8 + (i - 8) = i := by omega
    simp [hlow, hhigh, hsum]

/-- The four bytes of two counts at `a` to `a + 3`, as a channel holds them (R59). -/
def Memory.writeCounts (m : Memory) (a : Nat) (on off : BitVec 12) : Memory :=
  (((m.write a (lowByte on)).write (a + 1) (highByte on)).write (a + 2) (lowByte off)).write (a + 3)
    (highByte off)

section
variable {m : Memory} {a : Nat} (on off : BitVec 12) (h : m.wf) (ha : a + 3 < 256)
include h ha

/-- The ON count reads back: the later writes are at other addresses. -/
theorem Memory.readOn_writeCounts :
    countOf ((m.writeCounts a on off).read a) ((m.writeCounts a on off).read (a + 1)) = on := by
  have h0 := Memory.wf_write (v := lowByte on) h (by omega : a < 256)
  simp only [Memory.writeCounts]
  rw [Memory.read_write_other _ _ (by omega : a ≠ a + 3), Memory.read_write_other _ _ (by omega : a ≠ a + 2),
    Memory.read_write_other _ _ (by omega : a ≠ a + 1), Memory.read_write_same h,
    Memory.read_write_other _ _ (by omega : a + 1 ≠ a + 3), Memory.read_write_other _ _ (by omega : a + 1 ≠ a + 2),
    Memory.read_write_same h0, countOf_bytes]

theorem Memory.readOff_writeCounts :
    countOf ((m.writeCounts a on off).read (a + 2)) ((m.writeCounts a on off).read (a + 3)) = off := by
  have h0 := Memory.wf_write (v := lowByte on) h (by omega : a < 256)
  have h1 := Memory.wf_write (v := highByte on) h0 (by omega : a + 1 < 256)
  have h2 := Memory.wf_write (v := lowByte off) h1 (by omega : a + 2 < 256)
  simp only [Memory.writeCounts]
  rw [Memory.read_write_other _ _ (by omega : a + 2 ≠ a + 3), Memory.read_write_same h1,
    Memory.read_write_same h2, countOf_bytes]

end

theorem Memory.read_writeCounts_other (m : Memory) {a c : Nat} (on off : BitVec 12) (h : c < a ∨ a + 3 < c) :
    (m.writeCounts a on off).read c = m.read c := by
  simp only [Memory.writeCounts]
  rw [Memory.read_write_other _ _ (by omega), Memory.read_write_other _ _ (by omega),
    Memory.read_write_other _ _ (by omega), Memory.read_write_other _ _ (by omega)]

/-- The channel write stores the bytes of its counts in the channel's registers, in either form. -/
theorem foldl_store_channelRequests {c : Cfg} (h : c.wf2 = true) (m : Memory) (ch : BitVec 4)
    (on off : BitVec 12) :
    (channelRequests c ch on off).foldl Memory.store m =
      m.writeCounts (c.led0OnLAddr.toNat + 4 * ch.toNat) on off := by
  unfold channelRequests
  split
  · simp [Memory.store, Memory.writeCounts, burstAddr_channelReg, channelReg_toNat h]
  · simp [Memory.store, Memory.writeCounts, channelReg_toNat h]

/-! ## A channel command in E_ref -/

/-- A command that asks for counts on a channel up to 15 is accepted as the channel write of those counts. -/
theorem exec_of_channelCounts {s : State} (hs : s.Ready) {i : Instr} {ch : BitVec 8} {on off : Nat}
    (h : channelCounts s.cfg i = some (ch, on, off)) (hch : ch.toNat ≤ 15) :
    ∃ n m : BitVec 12, n.toNat = on ∧ m.toNat = off ∧
      exec i s = .next (s.clearTrace.startChannelWrite (latchedChannel ch) n m) := by
  have hok := (chanOK_iff ch).2 hch
  have hclamp (x : BitVec 16) : (clamp12 x).toNat = min x.toNat 4095 := by
    simp only [clamp12, tickMax, BitVec.toNat_ofNat]
    omega
  cases i with
  | setpwm ch' on' off' =>
    cases h
    refine ⟨_, _, hclamp on', hclamp off', ?_⟩
    rw [exec_setpwm, accept_of_ready hs.cfgWf hs.idle, if_pos hok]
  | setthr ch' pct =>
    cases h
    refine ⟨thrOn, _, rfl, rfl, ?_⟩
    rw [exec_setthr, accept_of_ready hs.cfgWf hs.idle, if_pos hok]
    rfl
  | _ => cases h

/-- The channel line from its start in E_ref, no failure listed: four transactions or one. -/
theorem Bench.run_channelWrite {s : State} {e : Eref} (hw : s.cfg.wf = true) (hf : e.fail = []) (ch : BitVec 4)
    (on off : BitVec 12) :
    ∃ t, Bench.run (if s.cfg.burst then 1 else 4) ⟨s.startChannelWrite ch on off, e⟩ = .next t ∧
      t.pmc.st = .idle ∧ t.pmc.res.status = .ok ∧
      t.env.reg = e.reg.writeCounts (s.cfg.led0OnLAddr.toNat + 4 * ch.toNat) on off := by
  have hlen : (channelRequests s.cfg ch on off).length = if s.cfg.burst then 1 else 4 := by
    unfold channelRequests
    split <;> rfl
  have hpos : (Line.channel.states s.cfg)[0]? = some (if s.cfg.burst then .pBurst else .pB0) := by
    cases hb : s.cfg.burst <;> simp [Line.states, hb]
  have hwrites : (∀ d t, .probe d t ∉ channelRequests s.cfg ch on off) ∧
      ∀ d a, .rd1 d a ∉ channelRequests s.cfg ch on off := by
    unfold channelRequests
    split <;> simp
  rw [← hlen, ← foldl_store_channelRequests (Cfg.wf2_of_wf hw)]
  exact Bench.run_line (ln := .channel) hw hf hpos List.drop_zero
    (fun d t hr => absurd hr (hwrites.1 d t)) hwrites.2

/-- Settles O54: acceptance latches the counts, and the channel line stores their bytes. -/
theorem channelCommandsInEref : Obligations.ChannelCommandsInEref := by
  intro b w ws ch on off hready hmem hf hcounts hch ho
  obtain ⟨n, m, rfl, rfl, he⟩ := exec_of_channelCounts (s := { b.pmc with offers := ws })
    ⟨hready.cfgWf, hready.idle⟩ hcounts hch
  have hstep := Bench.step_of_idle hready.idle ((step_of_offer hready.idle ho).trans he)
  obtain ⟨t, hrun, hidle, hok, hreg⟩ := Bench.run_channelWrite
    (s := State.clearTrace { b.pmc with offers := ws }) hready.cfgWf hf (latchedChannel ch) n m
  have hch4 : (latchedChannel ch).toNat = ch.toNat := by
    rw [latchedChannel_eq, BitVec.toNat_ofNat]
    omega
  have hfits : b.pmc.cfg.led0OnLAddr.toNat + 4 * ch.toNat + 3 < 256 := by
    have hwindow := Cfg.window_le_of_wf2 (Cfg.wf2_of_wf hready.cfgWf)
    omega
  have hk : (if b.pmc.cfg.burst then 2 else 5) = (if b.pmc.cfg.burst then 1 else 4) + 1 := by
    split <;> rfl
  rw [hch4] at hreg
  refine ⟨t, by rw [hk, Bench.run_succ hstep]; exact hrun, hidle, hok, ?_, ?_, fun a ha => ?_⟩ <;> rw [hreg]
  · exact congrArg BitVec.toNat (Memory.readOn_writeCounts n m hmem hfits)
  · exact congrArg BitVec.toNat (Memory.readOff_writeCounts n m hmem hfits)
  · exact Memory.read_writeCounts_other _ n m ha

end Sys2Proof.Machine
end

/-! # The command word: the decoder and the encoder (R81, R92, R96)

A word is the five fields of R81 side by side. The encoder builds a word from fields and the decoder reads fields, so
the two undo one another field by field. -/

section
namespace Sys2Proof.Machine
open Sys2Proof.Laws.EncodedOpcode (opField_cmdWord and_ones8 and_ones16)

/-! ## The fields of a word -/

section
variable (op : BitVec 4) (ch : BitVec 8) (a b : BitVec 16)

theorem bField_cmdWord : bField (cmdWord op ch a b) = b := BitVec.extractLsb'_append_eq_right

theorem aField_cmdWord : aField (cmdWord op ch a b) = a := by
  unfold aField cmdWord
  rw [BitVec.extractLsb'_append_eq_of_le (by decide)]
  exact BitVec.extractLsb'_append_eq_right

theorem chField_cmdWord : chField (cmdWord op ch a b) = ch := by
  unfold chField cmdWord
  rw [BitVec.extractLsb'_append_eq_of_le (by decide), BitVec.extractLsb'_append_eq_of_le (by decide)]
  exact BitVec.extractLsb'_append_eq_right

end

/-- A word is its five fields side by side (R81). -/
theorem fields_append (w : CmdWord) : opField w ++ rsvField w ++ chField w ++ aField w ++ bField w = w := by
  unfold opField rsvField chField aField bField
  rw [BitVec.extractLsb'_append_extractLsb'_eq_extractLsb' (show 44 = 40 + 4 from rfl),
    BitVec.extractLsb'_append_extractLsb'_eq_extractLsb' (show 40 = 32 + 8 from rfl),
    BitVec.extractLsb'_append_extractLsb'_eq_extractLsb' (show 32 = 16 + 16 from rfl),
    BitVec.extractLsb'_append_extractLsb'_eq_extractLsb' (show 16 = 0 + 16 from rfl)]
  exact BitVec.extractLsb'_eq_self

/-- A frequency pattern is its two operand fields side by side (R86). -/
theorem halves_append (f : BitVec 32) : f.extractLsb' 16 16 ++ f.extractLsb' 0 16 = f := by
  rw [BitVec.extractLsb'_append_extractLsb'_eq_extractLsb' (show 16 = 0 + 16 from rfl)]
  exact BitVec.extractLsb'_eq_self

/-- A mask that keeps `op` and drops `rsv` masks the other fields one by one. -/
theorem cmdWord_eq_and_of_fields {w : CmdWord} {op : BitVec 4} {ch k : BitVec 8} {a b m n : BitVec 16}
    (hop : op = opField w) (hch : chField w &&& k = ch) (ha : aField w &&& m = a) (hb : bField w &&& n = b) :
    cmdWord op ch a b = w &&& (0xF#4 ++ 0#4 ++ k ++ m ++ n) := by
  have hones : opField w &&& 0xF#4 = opField w := BitVec.and_allOnes
  conv_rhs => rw [← fields_append w]
  rw [BitVec.and_append, BitVec.and_append, BitVec.and_append, BitVec.and_append, hones, BitVec.and_zero, hch, ha,
    hb, cmdWord, hop]

/-! ## Decoding what was encoded -/

/-- Each operand is read from the field it was put in. -/
theorem decode_encode (i : Instr) : decode (encode i) = i := by
  cases i with
  | setfreq f => simp [encode, decode, opField_cmdWord, aField_cmdWord, bField_cmdWord, halves_append]
  | setpwm ch on off => simp [encode, decode, opField_cmdWord, chField_cmdWord, aField_cmdWord, bField_cmdWord]
  | setthr ch pct => simp [encode, decode, opField_cmdWord, chField_cmdWord, bField_cmdWord]
  | _ => rfl

/-- Settles O1: by the fields of the encoded word. -/
theorem decodeInvertsEncode : Obligations.DecodeInvertsEncode := decode_encode

/-- Settles O4: by evaluating the decoder on each word. -/
theorem workedEncodingsDecode : Obligations.WorkedEncodingsDecode := by
  unfold Obligations.WorkedEncodingsDecode
  decide

/-! ## Encoding what was decoded -/

/-- Decoding is by `op` alone (R92). -/
theorem opcode_decode (w : CmdWord) : (decode w).opcode = opField w := by
  have hlt : (opField w).toNat < 16 := (opField w).isLt
  apply BitVec.eq_of_toNat_eq
  unfold decode
  generalize (opField w).toNat = n at hlt ⊢
  interval_cases n <;> rfl

/-- The encoder keeps the fields the command reads; the other thirteen commands read `op` alone. -/
theorem encode_decode (w : CmdWord) : encode (decode w) = w &&& usedMask (decode w) := by
  have hop := opcode_decode w
  revert hop
  unfold decode
  split <;> intro hop
  case h_4 =>
    exact cmdWord_eq_and_of_fields hop BitVec.and_zero
      ((and_ones16 _).trans BitVec.extractLsb'_append_eq_left.symm)
      ((and_ones16 _).trans BitVec.extractLsb'_append_eq_right.symm)
  case h_5 => exact cmdWord_eq_and_of_fields hop (and_ones8 _) (and_ones16 _) (and_ones16 _)
  case h_6 => exact cmdWord_eq_and_of_fields hop (and_ones8 _) BitVec.and_zero (and_ones16 _)
  all_goals exact cmdWord_eq_and_of_fields hop BitVec.and_zero BitVec.and_zero BitVec.and_zero

/-- Settles O2: row by row of the decoder. -/
theorem encodeInvertsDecodeOnUsedBits : Obligations.EncodeInvertsDecodeOnUsedBits := encode_decode

/-- Which bits a command reads depends on `op` alone (R92). -/
theorem usedMask_decode_congr {w v : CmdWord} (h : opField w = opField v) :
    usedMask (decode w) = usedMask (decode v) := by
  unfold decode
  rw [h]
  split <;> simp only [usedMask]

/-- Every command reads `op`. -/
theorem opField_and_usedMask (w : CmdWord) (i : Instr) : opField (w &&& usedMask i) = opField w := by
  have hmask : opField (usedMask i) = 0xF#4 := by
    cases i <;> simp only [usedMask] <;> decide
  unfold opField at hmask ⊢
  rw [BitVec.extractLsb'_and, hmask]
  exact BitVec.and_allOnes

/-- Settles O3: both words encode to the same word once the ignored bits are zero, and that word decodes to the command
of each. -/
theorem ignoredBitsDoNotDecode : Obligations.IgnoredBitsDoNotDecode := by
  intro w v h
  have hop : opField v = opField w := by
    rw [← opField_and_usedMask v (decode w), ← h, opField_and_usedMask]
  calc
    decode v = decode (encode (decode v)) := (decode_encode _).symm
    _ = decode (v &&& usedMask (decode w)) := by rw [encode_decode, usedMask_decode_congr hop]
    _ = decode (encode (decode w)) := by rw [← h, encode_decode]
    _ = decode w := decode_encode _

end Sys2Proof.Machine
end

/-! # What acceptance and a step can answer

Under a well-formed CFG acceptance never stops, and an answer stops only where nothing was asked. A contract violation
ends in IDLE; every other command starts its line. -/

section
namespace Sys2Proof.Machine

/-! ## A step under a well-formed CFG -/

/-- Every command has a next state (R95, R211). -/
theorem exec_exists_next {s : State} (hw : s.cfg.wf = true) (i : Instr) : ∃ t, exec i s = .next t := by
  obtain ⟨run, hrun⟩ := exec_eq_accept i
  rw [hrun]
  by_cases hi : s.st = .idle
  · exact ⟨_, accept_of_ready hw hi⟩
  · exact ⟨_, accept_of_busy hw hi⟩

/-- Of the events outside, only an answer that nobody asked for stops the machine (log 11). -/
theorem takeInput_next_or_unsolicited {s : State} (hw : s.cfg.wf = true) (i : Input) :
    (∃ t, takeInput s i = .next t) ∨
      (s.st = .idle ∧ (∃ y, i = .answer y) ∧ takeInput s i = .fault .unsolicitedAnswer) := by
  cases i with
  | offer w => exact .inl ⟨_, rfl⟩
  | lateAnswer y => exact .inl ⟨_, rfl⟩
  | blockReset => exact .inl ⟨_, rfl⟩
  | answer y =>
    rcases hr : s.request with _ | r
    · exact .inr ⟨s.request_eq_none_iff.1 hr, ⟨y, rfl⟩, respond_of_noRequest y hw hr⟩
    · exact .inl ⟨_, respond_of_request y hw hr⟩

/-- Settles O8: by the case split of a step into accepting a command, taking an event and waiting. -/
theorem stepStopsOnlyOnUnsolicitedAnswer : Obligations.StepStopsOnlyOnUnsolicitedAnswer := by
  intro s hw
  rcases step_cases s with ⟨w, ws, -, -, he⟩ | ⟨i, is, hc, hin, he⟩ | ⟨-, -, he⟩
  · exact .inl (he ▸ exec_exists_next (s := { s with offers := ws }) hw (decode w))
  · rw [he]
    refine (takeInput_next_or_unsolicited (s := { s with inputs := is }) hw i).imp_right ?_
    rintro ⟨hi, ⟨y, rfl⟩, hf⟩
    exact ⟨hi, hc.resolve_left (not_not_intro hi), ⟨y, is, hin⟩, hf⟩
  · exact .inl ⟨s, he⟩

/-! ## Contract violations -/

/-- A command that is no contract violation is running once it is accepted (R94). -/
theorem CommandRun.st_ne_idle {i : Instr} {run : State → State} (h : CommandRun i run)
    (hv : violatesContract i = false) (s : State) : (run s).st ≠ .idle := by
  cases h with
  | violation hviol => simp [hviol] at hv
  | reset => simp
  | init => simp
  | setfreq _ => simp
  | setpwm on off _ => cases hb : s.cfg.burst <;> simp [hb]
  | setthr pct _ => cases hb : s.cfg.burst <;> simp [hb]

/-- Settles O16: a run either completes at once as a violation or keeps RES, and then it starts its line. -/
theorem contractViolationsFailFast : Obligations.ContractViolationsFailFast := by
  intro s i ⟨hw, hi⟩
  obtain ⟨run, hrun, he⟩ := exec_eq_accept_run i
  rw [he, accept_of_ready hw hi]
  rcases hrun.violation_or_res_eq s.clearTrace with ⟨hv, ht⟩ | ⟨hv, hres⟩
  · exact ⟨fun _ => ⟨_, _, congrArg _ ht⟩, fun h => absurd hv (by simp [h])⟩
  · exact ⟨fun h => absurd hv (by simp [h]), fun _ => ⟨_, rfl, hrun.st_ne_idle hv _, hres⟩⟩

/-! ## Illegal opcodes -/

/-- The eleven illegal commands by their opcode (R93). -/
theorem isIllegal_iff_opcode (i : Instr) : isIllegal i = true ↔ i.opcode = 0 ∨ 6 ≤ i.opcode.toNat := by
  cases i <;> simp [isIllegal, Instr.opcode]

theorem violatesContract_of_isIllegal {i : Instr} (h : isIllegal i = true) : violatesContract i = true := by
  cases i with
  | reset | init | setfreq | setpwm | setthr => cases h
  | _ => rfl

/-- Settles O15: an illegal word is one by its opcode, an illegal command is a contract violation, and in IDLE no
request is outstanding. -/
theorem illegalOpcodeCompletesAtOnce : Obligations.IllegalOpcodeCompletesAtOnce := by
  refine ⟨fun w => ?_, fun s i hs hill => ?_⟩
  · rw [isIllegal_iff_opcode, opcode_decode]
  · obtain ⟨d, n, he⟩ := (contractViolationsFailFast s i hs).1 (violatesContract_of_isIllegal hill)
    exact ⟨d, n, he, rfl⟩

end Sys2Proof.Machine
end

/-! # Answers and request records -/

section
namespace Sys2Proof.Machine

/-! ## The answers of each kind of request -/

/-- A write is answered `Ok` or `Err(e)`, and each of these can be drawn (R101). -/
def AnsweredOkOrErr (r : Request) : Prop :=
  (∃ y, answerOf r y = .ok) ∧ (∀ e, ∃ y, answerOf r y = .err e) ∧
    ∀ y, answerOf r y = .ok ∨ ∃ e, answerOf r y = .err e

theorem answeredOkOrErr_of_error {r : Request} (hok : ∀ p b, answerOf r ⟨p, b, none⟩ = .ok)
    (herr : ∀ p b e, answerOf r ⟨p, b, some e⟩ = .err e) : AnsweredOkOrErr r := by
  refine ⟨⟨_, hok false 0⟩, fun e => ⟨_, herr false 0 e⟩, ?_⟩
  rintro ⟨p, b, _ | e⟩
  · exact .inl (hok p b)
  · exact .inr ⟨e, herr p b e⟩

/-- Settles O19: a draw for each answer of each kind; the two writes are alike. -/
theorem transportMayGiveAnyAnswerOfItsKind : Obligations.TransportMayGiveAnyAnswerOfItsKind := by
  refine ⟨fun d n p => ⟨⟨p, 0, none⟩, rfl⟩, fun d n y => ⟨_, rfl⟩, fun d r b => ⟨⟨false, b, none⟩, rfl⟩,
    fun d r e => ⟨⟨false, 0, some e⟩, rfl⟩, fun d r y => ?_,
    fun d r b => answeredOkOrErr_of_error (fun _ _ => rfl) fun _ _ _ => rfl,
    fun d r b0 b1 b2 b3 => answeredOkOrErr_of_error (fun _ _ => rfl) fun _ _ _ => rfl, fun ms y => rfl⟩
  rcases he : y.error with _ | e
  · exact .inl ⟨y.byte, by simp [answerOf, he]⟩
  · exact .inr ⟨e, by simp [answerOf, he]⟩

/-! ## The record of a request -/

/-- The request a record stands for: the fields that are present tell the kinds apart (R100). -/
def RequestRecord.request? : RequestRecord → Option Request
  | { kind := _, dev8 := some d, reg := none, len := _, data := _, arg := some t } => some (.probe d t)
  | { kind := _, dev8 := some d, reg := some r, len := _, data := [], arg := _ } => some (.rd1 d r)
  | { kind := _, dev8 := some d, reg := some r, len := _, data := [b], arg := _ } => some (.wr1 d r b)
  | { kind := _, dev8 := some d, reg := some r, len := _, data := [b0, b1, b2, b3], arg := _ } =>
      some (.wrn d r b0 b1 b2 b3)
  | { kind := _, dev8 := none, reg := _, len := _, data := _, arg := some ms } => some (.delay ms)
  | _ => none

/-- A record loses nothing of its request. -/
theorem request?_requestRecord (r : Request) : (requestRecord r).request? = some r := by
  cases r <;> rfl

theorem requestRecord_injective (r q : Request) (h : requestRecord r = requestRecord q) : r = q := by
  have hr := request?_requestRecord r
  rw [h, request?_requestRecord q] at hr
  exact (Option.some.inj hr).symm

/-- `DEV8` is the 7-bit address with a 0 below it (R21). -/
theorem dev8_toNat (c : Cfg) : (dev8 c).toNat = 2 * c.devAddr7.toNat := by
  calc (dev8 c).toNat
    _ = c.devAddr7.toNat <<< 1 ||| 0 := BitVec.toNat_append c.devAddr7 0#1
    _ = 2 * c.devAddr7.toNat := by rw [Nat.or_zero, Nat.shiftLeft_eq, pow_one, mul_comm]

/-- A request PMC issues is a delay of a 16-bit number of milliseconds, or it carries `DEV8` (R21, R30). -/
theorem State.delay_or_dev8_of_request {s : State} {r : Request} (h : s.request = some r) :
    (∃ ms : BitVec 16, r = .delay (ms.setWidth 32)) ∨
      (∀ ms, r ≠ .delay ms) ∧ (requestRecord r).dev8 = some (dev8 s.cfg) := by
  unfold State.request at h
  cases hst : s.st <;> simp only [hst, Option.some.injEq, reduceCtorEq] at h <;> subst h
  case rDly | fDly => exact .inl ⟨_, rfl⟩
  all_goals exact .inr ⟨nofun, rfl⟩

theorem setWidth_ms_lt (ms : BitVec 16) : (ms.setWidth 32).toNat < 2 ^ 16 := by
  rw [BitVec.toNat_setWidth_of_le (by decide)]
  exact ms.isLt

/-- Settles O59: the records by value, their left inverse, and the two sorts of request PMC issues. -/
theorem requestRecordsAreFaithful : Obligations.RequestRecordsAreFaithful := by
  refine ⟨fun _ _ => rfl, fun _ _ => rfl, fun _ _ _ => rfl, fun _ _ _ _ _ _ => rfl, fun _ => rfl,
    requestRecord_injective, fun s r hr => ?_⟩
  rcases State.delay_or_dev8_of_request hr with ⟨ms, rfl⟩ | ⟨hne, hdev⟩
  · refine ⟨fun h => absurd rfl (h _), fun ms' h => ?_, dev8_toNat _⟩
    cases h
    exact setWidth_ms_lt ms
  · exact ⟨fun _ => hdev, fun ms h => absurd h (hne ms), dev8_toNat _⟩

end Sys2Proof.Machine
end

/-! # The numeric front ends on rationals (R87, R90, R143 to R146)

Each all-integer operation is the rational one it stands for: the pattern's fraction, the clamp, the rounded quotient,
the bounds of the byte. -/

section
namespace Sys2Proof.Machine

/-- The 12-bit clamp loses nothing of a value up to 4095. -/
theorem clamp12_toNat (x : BitVec 16) : (clamp12 x).toNat = min x.toNat 4095 := by
  simp only [clamp12, tickMax, BitVec.toNat_ofNat]
  omega

/-- Settles O46: the clamp as a number. -/
theorem clampTwelveSaturates : Obligations.ClampTwelveSaturates := clamp12_toNat

/-! ## The frequency -/

/-- The magnitude over `2 ^ 150` is the one the binary32 layout gives (R12, log 17). -/
theorem scaledMagnitude_div (f : BitVec 32) : (scaledMagnitude f : ℚ) / 2 ^ 150 =
    if exponentField f = 0 then ((fractionField f).toNat / 2 ^ 23 : ℚ) * (2 : ℚ) ^ (-126 : ℤ)
    else (1 + (fractionField f).toNat / 2 ^ 23 : ℚ) * (2 : ℚ) ^ ((exponentField f).toNat - 127 : ℤ) := by
  unfold scaledMagnitude
  split
  · push_cast
    ring
  · rw [zpow_sub₀ two_ne_zero, zpow_natCast]
    push_cast
    ring

theorem fracToRat_realOf (f : BitVec 32) : fracToRat (realOf f) = real32 f := by
  unfold real32
  rw [← scaledMagnitude_div]
  cases hs : signBit f <;> norm_num [fracToRat, realOf, hs, neg_div]

theorem fracToRat_clampFreq {q : Frac} (hden : 0 < q.den) :
    fracToRat (clampFreq q) = clampRat (fracToRat q) 1 3500 := by
  have hpos : (0 : ℚ) < q.den := Nat.cast_pos.2 hden
  have hlow : q.num < freqMin * q.den ↔ fracToRat q < 1 := by
    rw [fracToRat, div_lt_iff₀ hpos]
    norm_cast
  have hhigh : freqMax * q.den < q.num ↔ 3500 < fracToRat q := by
    rw [fracToRat, lt_div_iff₀ hpos]
    norm_cast
  unfold clampFreq clampRat
  split_ifs with h1 h2
  · rw [hlow] at h1
    rw [max_eq_left (min_le_of_right_le h1.le)]
    norm_num [fracToRat, freqMin]
  · rw [hhigh] at h2
    rw [min_eq_left h2.le]
    norm_num [fracToRat, freqMax]
  · rw [hlow, not_lt] at h1
    rw [hhigh, not_lt] at h2
    rw [min_eq_right h2, max_eq_right h1]

/-- Frequency decode is the rational one of R90, NaN and infinities included. -/
theorem decodeFreq_map_fracToRat (f : BitVec 32) : (decodeFreq f).map fracToRat = referenceFreq f := by
  unfold decodeFreq referenceFreq
  by_cases he : exponentField f = 0xFF#8
  · by_cases hf : fractionField f = 0#23
    · cases signBit f <;> simp [he, hf, fracToRat, freqMin, freqMax]
    · simp [he, hf]
  · have hclamp := fracToRat_clampFreq (q := realOf f) (Nat.two_pow_pos 150)
    simp [he, hclamp, fracToRat_realOf]

theorem referenceFreq_bounds {f : BitVec 32} {q : ℚ} (h : referenceFreq f = some q) : 1 ≤ q ∧ q ≤ 3500 := by
  unfold referenceFreq at h
  split_ifs at h <;> cases h
  · norm_num
  · norm_num
  · exact ⟨le_max_left _ _, max_le (by norm_num) (min_le_left _ _)⟩

/-! ## The prescale byte -/

/-- The all-integer quotient of R146 is the rounded rational one of R143 and R144. -/
theorem roundedQuotient_eq_rhaz (c : Cfg) {fc : Frac} (h : 0 < fracToRat fc) :
    roundedQuotient c fc = rhaz (c.oscHz.toNat / (fracToRat fc * 4096)) := by
  have hden : (0 : ℚ) < fc.den := by
    refine (Nat.cast_nonneg _).lt_of_ne' fun h0 => ?_
    simp [fracToRat, h0] at h
  have hnum : (0 : ℚ) < fc.num := (div_pos_iff_of_pos_right hden).1 h
  have hdiv : 0 ≤ 2 * (ticks : ℤ) * fc.num := mul_nonneg (by decide) (Int.cast_nonneg_iff.1 hnum.le)
  have hsum : (c.oscHz.toNat / (fracToRat fc * 4096) + 1 / 2 : ℚ) =
      ((2 * (c.oscHz.toNat : ℤ) * fc.den + ticks * fc.num : ℤ) : ℚ) / ((2 * ticks * fc.num : ℤ) : ℚ) := by
    rw [fracToRat, ticks]
    push_cast
    field_simp
    ring
  rw [rhaz, hsum, Int.floor_div_cast_of_nonneg hdiv, Int.floor_intCast, roundedQuotient]

/-- The byte holds the clamped value (R145). -/
theorem computePrescale_toNat (c : Cfg) (fc : Frac) : ((computePrescale c fc).toNat : ℤ) =
    clampInt (roundedQuotient c fc - 1) c.prescaleMin.toNat c.prescaleMax.toNat := by
  have hmin := c.prescaleMin.isLt
  have hmax := c.prescaleMax.isLt
  simp only [computePrescale, clampInt, BitVec.toNat_ofInt]
  omega

theorem computePrescale_eq_reference {c : Cfg} (hw : c.wf4 = true) {fc : Frac} (h : 0 < fracToRat fc) :
    ((computePrescale c fc).toNat : ℤ) = referencePrescale c (fracToRat fc) := by
  have hle : c.prescaleMin.toNat ≤ c.prescaleMax.toNat := of_decide_eq_true hw
  rw [computePrescale_toNat, roundedQuotient_eq_rhaz c h]
  simp only [clampInt, referencePrescale]
  omega

/-- Settles O45: the frequency is the reference one and within the bounds, hence positive, and then the byte is the
reference one. -/
theorem prescaleIsTheRationalFormula : Obligations.PrescaleIsTheRationalFormula := by
  intro c f hw
  have hmap := decodeFreq_map_fracToRat f
  cases hd : decodeFreq f with
  | none => rw [← hmap, hd]; rfl
  | some fc =>
    have href : referenceFreq f = some (fracToRat fc) := by rw [← hmap, hd]; rfl
    obtain ⟨hlow, hhigh⟩ := referenceFreq_bounds href
    exact ⟨href, hlow, hhigh, computePrescale_eq_reference (Cfg.wf4_of_wf hw) (zero_lt_one.trans_le hlow)⟩

end Sys2Proof.Machine
end

/-! # RESET and INIT (R110 to R117)

Each is accepted at the first state of its line. An answer that succeeds takes the line one state on or completes the
command, so a whole command is its acceptance and one such step for each transaction. -/

section
namespace Sys2Proof.Machine

/-! ## Acceptance -/

theorem exec_reset_of_ready {s : State} (h : s.Ready) :
    exec .reset s = .next { s with st := .rWr, trace := [] } :=
  (exec_reset s).trans (accept_of_ready h.cfgWf h.idle)

theorem exec_init_of_ready {s : State} (h : s.Ready) :
    exec .init s = .next { s with st := .iProbe, trace := [] } :=
  (exec_init s).trans (accept_of_ready h.cfgWf h.idle)

/-- In R_WR the write of the literal RESTART_MASK is outstanding: the overlay's reset select (R111, R129). -/
theorem State.request_of_rWr {s : State} (h : s.st = .rWr) :
    s.request = some (.wr1 (dev8 s.cfg) s.cfg.mode1Addr s.cfg.restartMask) := by
  simp only [State.request, h, overlay]

theorem State.request_of_rDly {s : State} (h : s.st = .rDly) :
    s.request = some (.delay (s.cfg.resetDelayMs.setWidth 32)) := by
  simp only [State.request, h]

theorem State.request_of_iProbe {s : State} (h : s.st = .iProbe) :
    s.request = some (.probe (dev8 s.cfg) s.cfg.probeTimeoutMs) := by
  simp only [State.request, h]

/-- Settles O10: RESET is accepted into R_WR, whose request is the write. -/
theorem resetIsAccepted : Obligations.ResetIsAccepted :=
  fun _ hready => ⟨exec_reset_of_ready hready, State.request_of_rWr rfl⟩

/-- Settles O11: INIT is accepted into I_PROBE, whose request is the probe. -/
theorem initIsAccepted : Obligations.InitIsAccepted :=
  fun _ hready => ⟨exec_init_of_ready hready, State.request_of_iProbe rfl⟩

section
variable {s : State} {w : CmdWord} {ws : List CmdWord} (h : s.Ready) (ho : s.offers = w :: ws)
include h ho

/-- The step that takes a held RESET (R44, R110). -/
theorem step_of_reset (hd : decode w = .reset) :
    step s = .next { s with st := .rWr, offers := ws, trace := [] } := by
  rw [step_of_offer h.idle ho, hd]
  exact exec_reset_of_ready ⟨h.cfgWf, h.idle⟩

/-- The step that takes a held INIT (R44, R114). -/
theorem step_of_init (hd : decode w = .init) :
    step s = .next { s with st := .iProbe, offers := ws, trace := [] } := by
  rw [step_of_offer h.idle ho, hd]
  exact exec_init_of_ready ⟨h.cfgWf, h.idle⟩

end

/-! ## The step of a successful answer, as one state -/

section
variable {s : State} {r : Request} {y : Reply} {a : Answer} {is : List Input} (hw : s.cfg.wf = true)
  (hr : s.request = some r) (hin : s.inputs = .answer y :: is) (ha : answerOf r y = a) (hok : a.isSuccess = true)
include hw hr hin ha hok

/-- A successful answer is recorded and latched, and the line goes on (R41). -/
theorem step_of_success : step s = .next
    ((State.record { s with inputs := is } r a).latchAnswer a).proceed := by
  rw [step_of_answer hw hr hin, ha, State.receive_of_isSuccess hok]

/-- A success before the end of a line goes on to the next state (R42). -/
theorem step_of_success_more {n : FsmState} (hnext : nextOnSuccess s.st = n) (hn : n ≠ .idle) :
    step s = .next { s with
      st := n, lat := (s.latchAnswer a).lat, inputs := is, trace := s.trace ++ [⟨r, a⟩] } := by
  rw [step_of_success hw hr hin ha hok, State.proceed_of_more (by simpa [hnext] using hn), State.latchAnswer_eq]
  subst hnext
  cases a <;> rfl

/-- A success at the end of a line completes the command with OK (R41). -/
theorem step_of_success_last (hnext : nextOnSuccess s.st = .idle) :
    step s = .next { s with
      st := .idle, lat := (s.latchAnswer a).lat, inputs := is, trace := s.trace ++ [⟨r, a⟩]
      res := { status := .ok, detail := Config.freeDetail s.draws }, draws := s.draws + 1 } := by
  rw [step_of_success hw hr hin ha hok, State.proceed_of_last (by simpa using hnext), State.latchAnswer_eq]
  cases a <;> rfl

end

theorem answerOf_wr1_of_noError (d a b : Byte) {y : Reply} (h : y.error = none) :
    answerOf (.wr1 d a b) y = .ok := by
  simp only [answerOf, h]

/-! ## Whole commands -/

/-- From R_WR on, the write answered `Ok`: the write, the delay, and completion with OK (R110, R112). -/
theorem run_of_rWr {s : State} {y z : Reply} {is : List Input} (hw : s.cfg.wf = true) (hst : s.st = .rWr)
    (hin : s.inputs = .answer y :: .answer z :: is) (hy : y.error = none) :
    run 2 s = .next { s with
      st := .idle
      inputs := is
      res := { status := .ok, detail := Config.freeDetail s.draws }
      trace := s.trace ++ [⟨.wr1 (dev8 s.cfg) s.cfg.mode1Addr s.cfg.restartMask, .ok⟩,
        ⟨.delay (s.cfg.resetDelayMs.setWidth 32), .done⟩]
      draws := s.draws + 1 } := by
  have hwrite := step_of_success_more hw (State.request_of_rWr hst) hin (answerOf_wr1_of_noError _ _ _ hy) rfl
    (n := .rDly) (by rw [hst]; rfl) nofun
  have hdelay := step_of_success_last (a := .done) (s := { s with
      st := .rDly, inputs := .answer z :: is
      trace := s.trace ++ [⟨.wr1 (dev8 s.cfg) s.cfg.mode1Addr s.cfg.restartMask, .ok⟩] })
    hw (State.request_of_rDly rfl) rfl rfl rfl rfl
  rw [run_succ hwrite]
  refine (run_succ hdelay).trans ?_
  simp only [run_zero, State.latchAnswer, List.append_assoc, List.cons_append, List.nil_append]

/-- Settles O23: acceptance, then the line of RESET. -/
theorem resetRunsToOk : Obligations.ResetRunsToOk := by
  intro s w ws y z is hready hd ho hin hy
  refine ⟨Config.freeDetail s.draws, s.draws + 1, ?_⟩
  rw [run_succ (step_of_reset hready ho hd), hready.idle]
  exact run_of_rWr hready.cfgWf rfl hin hy

/-- Settles O24: acceptance, the probe, then the line of RESET. -/
theorem initRunsToOk : Obligations.InitRunsToOk := by
  intro s w ws x y z is hready hd ho hin hx hy
  have hprobe := step_of_success_more (s := { s with st := .iProbe, offers := ws, trace := [] }) hready.cfgWf
    (State.request_of_iProbe rfl) hin (congrArg Answer.present hx) rfl (n := .rWr) rfl nofun
  refine ⟨Config.freeDetail s.draws, s.draws + 1, ?_⟩
  rw [run_succ (step_of_init hready ho hd), run_succ hprobe, hready.idle]
  exact run_of_rWr hready.cfgWf rfl rfl hy

/-- A probe answered `false` ends the command with DEVICE_NOT_READY (R207). -/
theorem step_of_absent {s : State} {x : Reply} {is : List Input} (hw : s.cfg.wf = true) (hst : s.st = .iProbe)
    (hin : s.inputs = .answer x :: is) (hx : x.present = false) :
    step s = .next { s with
      st := .idle
      inputs := is
      res := { status := .deviceNotReady, detail := Config.freeDetail s.draws }
      trace := s.trace ++ [⟨.probe (dev8 s.cfg) s.cfg.probeTimeoutMs, .present false⟩]
      draws := s.draws + 1 } := by
  rw [step_of_answer hw (State.request_of_iProbe hst) hin, answerOf, hx]
  rfl

/-- Settles O25: acceptance, then the probe, which ends the command. -/
theorem initOfAbsentDeviceOnlyProbes : Obligations.InitOfAbsentDeviceOnlyProbes := by
  intro s w ws x is hready hd ho hin hx
  refine ⟨Config.freeDetail s.draws, s.draws + 1, ?_⟩
  rw [run_succ (step_of_init hready ho hd), hready.idle]
  exact run_succ (step_of_absent hready.cfgWf rfl hin hx)

/-! ## In E_ref -/

/-- A command accepted at the start of a line that reads nothing, in E_ref with no failure listed: the line is stored,
in order, and the command completes with OK. -/
theorem Bench.run_command {b : Bench} {s : State} {ln : Line} {n : Nat} {m : Memory}
    (hready : b.pmc.Ready) (hf : b.env.fail = []) (hstep : Sys2Proof.Machine.step b.pmc = .next s)
    (hpos : (ln.states s.cfg)[0]? = some s.st) (hn : (ln.requests s.cfg s.lat).length = n)
    (hm : (ln.requests s.cfg s.lat).foldl Memory.store b.env.reg = m)
    (hprobe : ∀ d t, .probe d t ∈ ln.requests s.cfg s.lat → b.env.present = true)
    (hread : ∀ d a, .rd1 d a ∉ ln.requests s.cfg s.lat) :
    ∃ t, b.run (n + 1) = .next t ∧ t.pmc.st = .idle ∧ t.pmc.res.status = .ok ∧ t.env.reg = m := by
  have hw : s.cfg.wf = true := (cfgIsNeverWritten _ _ hstep).symm ▸ hready.cfgWf
  rw [Bench.run_succ (Bench.step_of_idle hready.idle hstep), ← hn, ← hm]
  exact Bench.run_line (b := ⟨s, b.env⟩) hw hf hpos List.drop_zero hprobe hread

/-- RESET, and INIT of a present device, store the one byte RESTART_MASK in MODE1 (R111). -/
theorem Bench.run_reset_or_init {b : Bench} {w : CmdWord} {ws : List CmdWord} (hready : b.pmc.Ready)
    (hf : b.env.fail = []) (ho : b.pmc.offers = w :: ws)
    (hd : decode w = .reset ∨ (decode w = .init ∧ b.env.present = true)) :
    ∃ t, b.run (if decode w = .reset then 3 else 4) = .next t ∧ t.pmc.st = .idle ∧ t.pmc.res.status = .ok ∧
      t.env.reg = b.env.reg.write b.pmc.cfg.mode1Addr.toNat b.pmc.cfg.restartMask := by
  rcases hd with hd | ⟨hd, hpresent⟩
  · rw [if_pos hd]
    exact Bench.run_command (ln := .reset) hready hf (step_of_reset hready ho hd) rfl rfl rfl
      (by simp [Line.requests, resetRequests]) (by simp [Line.requests, resetRequests])
  · rw [if_neg (by simp [hd])]
    exact Bench.run_command (ln := .init) hready hf (step_of_init hready ho hd) rfl rfl rfl
      (fun _ _ _ => hpresent) (by simp [Line.requests, initRequests, resetRequests])

/-- Settles O56: the one byte stored reads back, and every other register reads as before. -/
theorem resetAndInitInEref : Obligations.ResetAndInitInEref := by
  intro b w ws hready hmem hf ho hd
  obtain ⟨t, hrun, hidle, hok, hreg⟩ := Bench.run_reset_or_init hready hf ho hd
  refine ⟨t, hrun, hidle, hok, ?_, fun a ha => ?_⟩ <;> rw [hreg]
  · exact Memory.read_write_same hmem _ _
  · exact Memory.read_write_other _ _ ha

end Sys2Proof.Machine
end

/-! # The overlay (R125 to R130)

Two different one-hot masks share no position. A select that sets or clears a mask keeps every position disjoint from
it, and UNRELATED is disjoint from all three masks. -/

section
namespace Sys2Proof.Machine

/-! ## Disjoint masks -/

theorem exists_twoPow_of_oneHot {m : Byte} (h : oneHot m = true) : ∃ i, m = BitVec.twoPow 8 i := by
  simp only [oneHot, Bool.and_eq_true, bne_iff_ne, beq_iff_eq] at h
  obtain ⟨hne, hpred⟩ := h
  have hpos : m.toNat ≠ 0 := fun h0 => hne (BitVec.eq_of_toNat_eq h0)
  have hsub : (m - 1).toNat = m.toNat - 1 := BitVec.toNat_sub_of_le (by bv_omega)
  have hnat : m.toNat &&& (m.toNat - 1) = 0 := by
    rw [← hsub, ← BitVec.toNat_and, hpred]
    rfl
  obtain ⟨i, hi⟩ := (Nat.and_sub_one_eq_zero_iff_isPowerOfTwo hpos).1 hnat
  exact ⟨i, BitVec.eq_of_toNat_eq (by rw [BitVec.toNat_twoPow, ← hi, Nat.mod_eq_of_lt m.isLt])⟩

theorem and_eq_zero_of_oneHot {a b : Byte} (ha : oneHot a = true) (hb : oneHot b = true) (hne : a ≠ b) :
    a &&& b = 0 := by
  obtain ⟨i, rfl⟩ := exists_twoPow_of_oneHot ha
  obtain ⟨j, rfl⟩ := exists_twoPow_of_oneHot hb
  have hij : i ≠ j := mt (congrArg _) hne
  rw [BitVec.and_twoPow, BitVec.getLsbD_twoPow]
  simp [hij]

theorem and_eq_zero_symm {a b : Byte} (h : a &&& b = 0) : b &&& a = 0 :=
  (BitVec.and_comm b a).trans h

theorem or_and_same (x k : Byte) : (x ||| k) &&& k = k := by
  ext i hi
  simpa using Or.inr

/-- Setting a mask keeps the positions disjoint from it. -/
theorem or_and_of_disjoint (x : Byte) {s k : Byte} (h : s &&& k = 0) : (x ||| s) &&& k = x &&& k := by
  rw [BitVec.and_or_distrib_right, h]
  exact BitVec.or_zero

/-- Clearing a mask keeps the positions disjoint from it. -/
theorem andNot_and_of_disjoint (x : Byte) {r k : Byte} (h : r &&& k = 0) : x &&& ~~~ r &&& k = x &&& k := by
  ext i hi
  have hbit : (r[i] && k[i]) = false := by simpa using congrArg (fun b : Byte => b[i]) h
  simp only [BitVec.getElem_and, BitVec.getElem_not]
  cases hr : r[i] <;> simp_all

/-- WF1 makes the three masks pairwise disjoint (R25). -/
theorem Cfg.masks_disjoint {c : Cfg} (h : c.wf1 = true) :
    c.restartMask &&& c.sleepMask = 0 ∧ c.restartMask &&& c.aiMask = 0 ∧ c.sleepMask &&& c.aiMask = 0 := by
  simp only [Cfg.wf1, Bool.and_eq_true, bne_iff_ne] at h
  obtain ⟨⟨⟨⟨⟨hs, hr⟩, ha⟩, hsr⟩, hsa⟩, hra⟩ := h
  exact ⟨and_eq_zero_of_oneHot hr hs hsr.symm, and_eq_zero_of_oneHot hr ha hra, and_eq_zero_of_oneHot hs ha hsa⟩

/-- UNRELATED is disjoint from each mask (R25), whatever the masks are. -/
theorem Cfg.masks_and_unrelated (c : Cfg) : c.restartMask &&& c.unrelated = 0 ∧
    c.sleepMask &&& c.unrelated = 0 ∧ c.aiMask &&& c.unrelated = 0 := by
  refine ⟨?_, ?_, ?_⟩ <;> ext i hi <;> grind [Cfg.unrelated, Cfg.managed]

/-! ## The selects -/

/-- The sleep select keeps the positions outside RESTART and SLEEP (R126). -/
theorem overlay_sleep_and {c : Cfg} {k : Byte} (m : Byte) (hr : c.restartMask &&& k = 0)
    (hs : c.sleepMask &&& k = 0) : overlay c .sleep m &&& k = m &&& k :=
  (or_and_of_disjoint _ hs).trans (andNot_and_of_disjoint _ hr)

/-- The restart select keeps the positions outside RESTART and AUTO-INCREMENT (R128). -/
theorem overlay_restartAi_and {c : Cfg} {k : Byte} (m : Byte) (hr : c.restartMask &&& k = 0)
    (ha : c.aiMask &&& k = 0) : overlay c .restartAi m &&& k = m &&& k :=
  (or_and_of_disjoint _ ha).trans (or_and_of_disjoint _ hr)

/-- Every select but the reset one keeps the unrelated positions (R130). -/
theorem overlay_and_unrelated (c : Cfg) {sel : OverlaySel} (m : Byte) (h : sel ≠ .reset) :
    overlay c sel m &&& c.unrelated = m &&& c.unrelated := by
  obtain ⟨hr, hs, ha⟩ := Cfg.masks_and_unrelated c
  cases sel with
  | sleep => exact overlay_sleep_and m hr hs
  | restore => rfl
  | restartAi => exact overlay_restartAi_and m hr ha
  | reset => exact absurd rfl h

theorem overlay_sleep_and_restart {c : Cfg} (m : Byte) (h : c.restartMask &&& c.sleepMask = 0) :
    overlay c .sleep m &&& c.restartMask = 0 := by
  rw [overlay, or_and_of_disjoint _ (and_eq_zero_symm h), BitVec.and_assoc, BitVec.not_and_self]
  exact BitVec.and_zero

theorem overlay_restartAi_and_restart {c : Cfg} (m : Byte) (h : c.restartMask &&& c.aiMask = 0) :
    overlay c .restartAi m &&& c.restartMask = c.restartMask :=
  (or_and_of_disjoint _ (and_eq_zero_symm h)).trans (or_and_same _ _)

/-- Settles O42: the formulas are the definition's, and each position is set, cleared, or disjoint from what is. -/
theorem overlaySelects : Obligations.OverlaySelects := by
  intro c m h
  obtain ⟨hrs, hra, hsa⟩ := Cfg.masks_disjoint h
  refine ⟨rfl, overlay_sleep_and_restart m hrs, or_and_same _ _, overlay_sleep_and m hra hsa,
    overlay_and_unrelated c m nofun, rfl, rfl, overlay_restartAi_and_restart m hra, or_and_same _ _,
    overlay_restartAi_and m hrs (and_eq_zero_symm hsa), overlay_and_unrelated c m nofun, rfl, rfl,
    BitVec.or_assoc m 0x80 0x20, rfl, by decide, rfl, by decide⟩

/-! ## The bytes written to MODE1 -/

/-- The registers of every channel lie in the channel window (R24, R57). -/
theorem inChannelWindow_channelReg {c : Cfg} (h : c.wf2 = true) (ch : BitVec 4) {k : Nat} (hk : k ≤ 3) :
    c.inChannelWindow (channelReg c ch k) = true := by
  have hch := ch.isLt
  simp only [Cfg.inChannelWindow, Cfg.lastChannelAddr, channelReg_toNat h ch hk, Bool.and_eq_true, decide_eq_true_eq]
  omega

/-- MODE1 is neither PRESCALE nor a channel register (R33). -/
theorem Cfg.mode1Addr_ne {c : Cfg} (h : c.wf = true) : c.mode1Addr ≠ c.prescaleAddr ∧
    ∀ (ch : BitVec 4) {k : Nat}, k ≤ 3 → c.mode1Addr ≠ channelReg c ch k := by
  have hwf2 := Cfg.wf2_of_wf h
  simp only [Cfg.wf, Cfg.wf8, Bool.and_eq_true, bne_iff_ne, Bool.not_eq_true'] at h
  obtain ⟨-, ⟨hpre, hwindow⟩, -⟩ := h
  refine ⟨hpre, fun ch k hk heq => ?_⟩
  rw [heq, inChannelWindow_channelReg hwf2 ch hk] at hwindow
  cases hwindow

/-- A byte written to MODE1 is an output of the overlay, and only in R_WR of the reset select (R42, R129). -/
theorem State.overlay_of_mode1Write {s : State} {d b : Byte} (hw : s.cfg.wf = true)
    (h : s.request = some (.wr1 d s.cfg.mode1Addr b)) :
    ∃ sel, b = overlay s.cfg sel s.lat.oldMode ∧ (s.st ≠ .rWr → sel ≠ .reset) := by
  obtain ⟨hpre, hch⟩ := Cfg.mode1Addr_ne hw
  unfold State.request at h
  cases hst : s.st <;>
    simp only [hst, Option.some.injEq, reduceCtorEq, Request.wr1.injEq] at h <;> obtain ⟨-, ha, rfl⟩ := h
  case rWr => exact ⟨.reset, rfl, fun hne => absurd rfl hne⟩
  case fSleep => exact ⟨.sleep, rfl, nofun⟩
  case fWake => exact ⟨.restore, rfl, nofun⟩
  case fRestart => exact ⟨.restartAi, rfl, nofun⟩
  case fPre => exact absurd ha.symm hpre
  case pB0 | pB1 | pB2 | pB3 => exact absurd ha.symm (hch _ (by decide))

/-- Settles O37: the select is that of `State.overlay_of_mode1Write`, and outside R_WR it keeps the unrelated bits. -/
theorem mode1WritesKeepUnrelatedBits : Obligations.Mode1WritesKeepUnrelatedBits := by
  intro s d b hw hr
  obtain ⟨sel, rfl, hsel⟩ := State.overlay_of_mode1Write hw hr
  exact ⟨⟨sel, rfl⟩, fun hst => overlay_and_unrelated s.cfg _ (hsel hst)⟩

end Sys2Proof.Machine
end

/-! # A line answered from outside

A success that carries no byte leaves the latches as they are, so from any place of a line the requests to come are
known beforehand: the line runs to its end, or to its first `Err(e)`. -/

section
namespace Sys2Proof.Machine

/-- A success with no byte to latch (R35, R101). -/
def Answer.isPlainSuccess (a : Answer) : Prop := a.isSuccess = true ∧ ∀ b, a ≠ .okByte b

/-- A request whose success carries no byte, whatever else is drawn: a write or a delay. -/
def Request.isWriteOrDelay : Request → Bool
  | .probe _ _ => false
  | .rd1 _ _ => false
  | .wr1 _ _ _ => true
  | .wrn _ _ _ _ _ _ => true
  | .delay _ => true

theorem answerOf_isPlainSuccess {r : Request} {y : Reply} (hr : r.isWriteOrDelay = true) (hy : y.error = none) :
    (answerOf r y).isPlainSuccess := by
  cases r with
  | probe d t => cases hr
  | rd1 d a => cases hr
  | wr1 d a b => simp [answerOf, hy, Answer.isPlainSuccess, Answer.isSuccess]
  | wrn d a b0 b1 b2 b3 => simp [answerOf, hy, Answer.isPlainSuccess, Answer.isSuccess]
  | delay ms => exact ⟨rfl, nofun⟩

/-- Nothing that is drawn fails a delay (R101). -/
theorem answerOf_delay_isPlainSuccess (ms : BitVec 32) (y : Reply) : (answerOf (.delay ms) y).isPlainSuccess :=
  ⟨rfl, nofun⟩

/-- A draw that holds an error fails every request but a probe and a delay (R101). -/
theorem answerOf_eq_err {r : Request} {y : Reply} {e : TransportError} (hr : r.canFail = true)
    (hy : y.error = some e) : answerOf r y = .err e := by
  cases r with
  | probe d t => cases hr
  | rd1 d a => simp only [answerOf, hy]
  | wr1 d a b => simp only [answerOf, hy]
  | wrn d a b0 b1 b2 b3 => simp only [answerOf, hy]
  | delay ms => cases hr

/-- Requests `rs` are answered by the draws `ys`, one by one, each with a plain success. -/
def AnsweredPlainly (rs : List Request) (ys : List Reply) : Prop :=
  List.Forall₂ (fun r y => (answerOf r y).isPlainSuccess) rs ys

/-- The transactions that the requests `rs` and the draws `ys` make (R14). -/
def transactions (rs : List Request) (ys : List Reply) : List Txn :=
  List.zipWith (fun r y => ⟨r, answerOf r y⟩) rs ys

/-- Writes and delays whose draws hold no error are answered plainly. -/
theorem answeredPlainly_of_noError {rs : List Request} {ys : List Reply} (hlen : rs.length = ys.length)
    (hrs : ∀ r ∈ rs, r.isWriteOrDelay = true) (hys : ∀ y ∈ ys, y.error = none) : AnsweredPlainly rs ys := by
  refine List.forall₂_iff_zip.2 ⟨hlen, fun hmem => ?_⟩
  obtain ⟨hr, hy⟩ := List.of_mem_zip hmem
  exact answerOf_isPlainSuccess (hrs _ hr) (hys _ hy)

theorem AnsweredPlainly.map_request {rs : List Request} {ys : List Reply} (h : AnsweredPlainly rs ys) :
    (transactions rs ys).map Txn.request = rs := by
  induction h with
  | nil => rfl
  | cons _ _ ih => exact congrArg (_ :: ·) ih

/-! ## One place of a line -/

/-- The state one place on along a line, `r` answered by `y` and recorded, no latch written. -/
def State.answeredAt (s : State) (r : Request) (y : Reply) (is : List Input) : State :=
  { s with st := nextOnSuccess s.st, inputs := is, trace := s.trace ++ [⟨r, answerOf r y⟩] }

theorem drop_succ_of_drop_eq_cons {α : Type} {l rest : List α} {k : Nat} {a : α} (h : l.drop k = a :: rest) :
    l.drop (k + 1) = rest := by
  rw [← List.tail_drop, h, List.tail_cons]

section
variable {s : State} {ln : Line} {k : Nat} {r : Request} {rest : List Request}
  (hpos : (ln.states s.cfg)[k]? = some s.st) (hrs : (ln.requests s.cfg s.lat).drop k = r :: rest)
include hpos hrs

/-- The first of the requests still to come is outstanding. -/
theorem Line.request_of_drop : s.request = some r := by
  rw [← Line.getElem?_requests hpos, ← List.head?_drop, hrs, List.head?_cons]

/-- With requests left after this one the line goes on to the state at the next place. -/
theorem Line.exists_next_state (hmore : rest ≠ []) :
    nextOnSuccess s.st ≠ .idle ∧ (ln.states s.cfg)[k + 1]? = some (nextOnSuccess s.st) := by
  have hlt : k + 1 < (ln.states s.cfg).length := by
    by_contra hend
    rw [not_lt, ← ln.length_requests s] at hend
    exact hmore ((drop_succ_of_drop_eq_cons hrs).symm.trans (List.drop_eq_nil_of_le hend))
  have hn : nextOnSuccess s.st ≠ .idle := fun hi => hlt.ne' (Line.length_states_of_last hpos hi)
  exact ⟨hn, Line.getElem?_succ_of_more hpos hn⟩

/-- With no request left after this one the line is over. -/
theorem Line.nextOnSuccess_of_drop_last (hlast : rest = []) : nextOnSuccess s.st = .idle := by
  have hend := List.drop_eq_nil_iff.1 ((drop_succ_of_drop_eq_cons hrs).trans hlast)
  rw [ln.length_requests s] at hend
  rw [Line.nextOnSuccess_eq hpos, List.getElem?_eq_none hend, Option.getD_none]

variable {y : Reply} {is : List Input} (hw : s.cfg.wf = true) (hin : s.inputs = .answer y :: is)
include hw hin

/-- A plain success takes the line one place on and leaves the latches. -/
theorem step_of_plainSuccess_more (hy : (answerOf r y).isPlainSuccess) (hmore : rest ≠ []) :
    step s = .next (s.answeredAt r y is) := by
  rw [step_of_success_more hw (Line.request_of_drop hpos hrs) hin rfl hy.1 rfl
    (Line.exists_next_state hpos hrs hmore).1, State.latchAnswer_of_ne_okByte s hy.2]
  rfl

/-- A plain success of the last request completes the command with OK and leaves the latches. -/
theorem step_of_plainSuccess_last (hy : (answerOf r y).isPlainSuccess) (hlast : rest = []) :
    step s = .next { s with
      st := .idle, inputs := is, trace := s.trace ++ [⟨r, answerOf r y⟩]
      res := { status := .ok, detail := Config.freeDetail s.draws }, draws := s.draws + 1 } := by
  rw [step_of_success_last hw (Line.request_of_drop hpos hrs) hin rfl hy.1
    (Line.nextOnSuccess_of_drop_last hpos hrs hlast), State.latchAnswer_of_ne_okByte s hy.2]

end

/-- `Err(e)` completes the command with BUS_ERROR(e) and leaves the latches (R206, R212). -/
theorem step_of_error {s : State} {r : Request} {y : Reply} {e : TransportError} {is : List Input}
    (hw : s.cfg.wf = true) (hr : s.request = some r) (hin : s.inputs = .answer y :: is)
    (he : answerOf r y = .err e) :
    step s = .next { s with
      st := .idle, inputs := is, trace := s.trace ++ [⟨r, .err e⟩]
      res := { status := .busError, detail := e } } := by
  rw [step_of_answer hw hr hin, he]
  rfl

/-! ## The rest of a line -/

/-- From place `k` of a line on, every request answered plainly: the rest of the line is issued, in order, and the
command completes with OK. -/
theorem run_of_answeredPlainly {ln : Line} {rs : List Request} {ys : List Reply} (h : AnsweredPlainly rs ys)
    {s : State} {k : Nat} {is : List Input} (hw : s.cfg.wf = true)
    (hpos : (ln.states s.cfg)[k]? = some s.st) (hrs : (ln.requests s.cfg s.lat).drop k = rs)
    (hin : s.inputs = ys.map Input.answer ++ is) :
    run ys.length s = .next { s with
      st := .idle, inputs := is, trace := s.trace ++ transactions rs ys
      res := { status := .ok, detail := Config.freeDetail s.draws }, draws := s.draws + 1 } := by
  induction h generalizing s k with
  | nil =>
    have hk := (List.getElem?_eq_some_iff.1 hpos).1
    have hend := List.drop_eq_nil_iff.1 hrs
    rw [ln.length_requests s] at hend
    omega
  | @cons r y rs ys hy hys ih =>
    rw [List.map_cons, List.cons_append] at hin
    by_cases hlast : rs = []
    · subst hlast
      cases hys
      exact run_succ (step_of_plainSuccess_last hpos hrs hw hin hy rfl)
    · rw [List.length_cons, run_succ (step_of_plainSuccess_more hpos hrs hw hin hy hlast)]
      rw [ih (s := s.answeredAt r y (ys.map Input.answer ++ is)) hw (Line.exists_next_state hpos hrs hlast).2
        (drop_succ_of_drop_eq_cons hrs) rfl]
      simp only [State.answeredAt, List.append_assoc]
      rfl

/-- From place `k` of a line on, some requests answered plainly and the next one with `Err(e)`: exactly those are
issued, in order, and the command completes with BUS_ERROR(e). -/
theorem run_of_answeredPlainly_error {ln : Line} {rs rest : List Request} {r : Request} {ys : List Reply} {y : Reply}
    {e : TransportError} (h : AnsweredPlainly rs ys) (he : answerOf r y = .err e)
    {s : State} {k : Nat} {is : List Input} (hw : s.cfg.wf = true)
    (hpos : (ln.states s.cfg)[k]? = some s.st) (hrs : (ln.requests s.cfg s.lat).drop k = rs ++ r :: rest)
    (hin : s.inputs = ys.map Input.answer ++ .answer y :: is) :
    run (ys.length + 1) s = .next { s with
      st := .idle, inputs := is, trace := s.trace ++ transactions rs ys ++ [⟨r, .err e⟩]
      res := { status := .busError, detail := e } } := by
  induction h generalizing s k with
  | nil =>
    refine (run_succ (step_of_error hw (Line.request_of_drop hpos hrs) hin he)).trans ?_
    simp only [transactions, List.zipWith_nil_left, List.append_nil]
    rfl
  | @cons r' y' rs ys hy _ ih =>
    rw [List.map_cons, List.cons_append] at hin
    have hmore : rs ++ r :: rest ≠ [] := by simp
    rw [List.length_cons, run_succ (step_of_plainSuccess_more hpos hrs hw hin hy hmore)]
    rw [ih (s := s.answeredAt r' y' (ys.map Input.answer ++ .answer y :: is)) hw
      (Line.exists_next_state hpos hrs hmore).2 (drop_succ_of_drop_eq_cons hrs) rfl]
    simp only [State.answeredAt, List.append_assoc]
    rfl

/-- From place `k` of a line on, writes and delays alone until a draw holds the error `e`: the requests up to the
failing one are issued, in order, and the command completes with BUS_ERROR(e). -/
theorem run_of_firstError {s : State} {ln : Line} {k : Nat} {rs : List Request} {r : Request} {ys : List Reply}
    {y : Reply} {e : TransportError} {is : List Input} (hw : s.cfg.wf = true)
    (hpos : (ln.states s.cfg)[k]? = some s.st) (hrs : (ln.requests s.cfg s.lat).drop k = rs)
    (hr : rs[ys.length]? = some r) (hfail : r.canFail = true)
    (hplain : ∀ q ∈ rs.take ys.length, q.isWriteOrDelay = true) (hys : ∀ x ∈ ys, x.error = none)
    (he : y.error = some e) (hin : s.inputs = ys.map Input.answer ++ .answer y :: is) :
    ∃ t, run (ys.length + 1) s = .next t ∧ t.st = .idle ∧ t.lat = s.lat ∧ t.inputs = is ∧
      t.res = { status := .busError, detail := e } ∧
      t.trace.map Txn.request = s.trace.map Txn.request ++ rs.take (ys.length + 1) := by
  obtain ⟨hlt, hget⟩ := List.getElem?_eq_some_iff.1 hr
  have hsplit : rs = rs.take ys.length ++ r :: rs.drop (ys.length + 1) := by
    rw [← hget, ← List.drop_eq_getElem_cons hlt, List.take_append_drop]
  have hans := answeredPlainly_of_noError (List.length_take_of_le hlt.le) hplain hys
  refine ⟨_, run_of_answeredPlainly_error hans (answerOf_eq_err hfail he) hw hpos (hrs.trans hsplit) hin,
    rfl, rfl, rfl, rfl, ?_⟩
  rw [List.map_append, List.map_append, hans.map_request, List.append_assoc, List.take_add_one, hr,
    Option.toList_some, List.map_singleton]

end Sys2Proof.Machine
end

/-! # SETFREQ (R140 to R160)

The prescale byte, then the command: it is accepted into F_RD, the byte read is latched, and from F_SLEEP on the line
reads nothing more. -/

section
namespace Sys2Proof.Machine

/-! ## The prescale byte -/

/-- Settles O43: a clamped value, which the byte holds. -/
theorem prescaleIsWithinBounds : Obligations.PrescaleIsWithinBounds :=
  fun _ fc h => computePrescale_bounds fc h

theorem fracToRat_pos {q : Frac} (hnum : 0 < q.num) (hden : 0 < q.den) : 0 < fracToRat q :=
  div_pos (Int.cast_pos.2 hnum) (Nat.cast_pos.2 hden)

theorem rhaz_mono {p q : ℚ} (h : p ≤ q) : rhaz p ≤ rhaz q :=
  Int.floor_mono (add_le_add_left h _)

theorem clampInt_mono {v u : Int} (lo hi : Int) (h : v ≤ u) : clampInt v lo hi ≤ clampInt u lo hi :=
  max_le_max_left lo (min_le_min_left hi h)

/-- The frequency stands in the denominator of R143. -/
theorem roundedQuotient_antitone (c : Cfg) {p q : Frac} (hp : 0 < fracToRat p) (hpq : fracToRat p ≤ fracToRat q) :
    roundedQuotient c q ≤ roundedQuotient c p := by
  rw [roundedQuotient_eq_rhaz c hp, roundedQuotient_eq_rhaz c (hp.trans_le hpq)]
  refine rhaz_mono (div_le_div_of_nonneg_left (Nat.cast_nonneg _) ?_ ?_)
  · exact mul_pos hp (by norm_num)
  · exact mul_le_mul_of_nonneg_right hpq (by norm_num)

/-- Settles O44: the rounded quotient falls as the frequency rises, and the clamp keeps the order. -/
theorem prescaleIsNonIncreasing : Obligations.PrescaleIsNonIncreasing := by
  intro c p q _ hpn hpd _ _ hpq
  have hquot := roundedQuotient_antitone c (fracToRat_pos hpn hpd) hpq
  rw [← Int.ofNat_le, computePrescale_toNat, computePrescale_toNat]
  exact clampInt_mono _ _ (Int.sub_le_sub_right hquot 1)

/-! ## Acceptance -/

theorem exec_setfreq_of_ready {s : State} {f : BitVec 32} {fc : Frac} (h : s.Ready)
    (hf : decodeFreq f = some fc) :
    exec (.setfreq f) s = .next { s with
      st := .fRd, lat := { s.lat with pre := computePrescale s.cfg fc }, trace := [] } := by
  rw [exec_setfreq, accept_of_ready h.cfgWf h.idle, hf]
  rfl

theorem State.request_of_fRd {s : State} (h : s.st = .fRd) :
    s.request = some (.rd1 (dev8 s.cfg) s.cfg.mode1Addr) := by
  simp only [State.request, h]

/-- Settles O12: what is no NaN decodes to a frequency, and SETFREQ is accepted into F_RD, whose request is the
read. -/
theorem setfreqIsAccepted : Obligations.SetfreqIsAccepted := by
  intro s f hready hnan
  have hsome : decodeFreq f ≠ none := fun hn => by simp [(decodeFreq_eq_none_iff f).1 hn] at hnan
  obtain ⟨fc, hf⟩ := Option.ne_none_iff_exists'.1 hsome
  exact ⟨fc, hf, exec_setfreq_of_ready hready hf, State.request_of_fRd rfl⟩

/-- SETFREQ after its acceptance: F_RD, the prescale byte latched, nothing recorded (R150). -/
def State.setfreqAccepted (s : State) (ws : List CmdWord) (fc : Frac) : State :=
  { s with st := .fRd, lat := { s.lat with pre := computePrescale s.cfg fc }, offers := ws, trace := [] }

/-- SETFREQ after its read: F_SLEEP, the byte read latched and recorded (R152). -/
def State.setfreqRead (s : State) (ws : List CmdWord) (fc : Frac) (m : Byte) : State :=
  { s.setfreqAccepted ws fc with
    st := .fSleep
    lat := { s.lat with oldMode := m, pre := computePrescale s.cfg fc }
    trace := [⟨.rd1 (dev8 s.cfg) s.cfg.mode1Addr, .okByte m⟩] }

/-- The step that takes a held SETFREQ (R44, R150). -/
theorem step_of_setfreq {s : State} {w : CmdWord} {ws : List CmdWord} {f : BitVec 32} {fc : Frac} (h : s.Ready)
    (ho : s.offers = w :: ws) (hd : decode w = .setfreq f) (hf : decodeFreq f = some fc) :
    step s = .next (s.setfreqAccepted ws fc) := by
  rw [step_of_offer h.idle ho, hd]
  exact exec_setfreq_of_ready ⟨h.cfgWf, h.idle⟩ hf

/-- The step that takes the byte read (R152). -/
theorem step_of_setfreqAccepted {s : State} (ws : List CmdWord) (fc : Frac) {y : Reply} {is : List Input}
    (hw : s.cfg.wf = true) (hin : s.inputs = .answer y :: is) (hy : y.error = none) :
    step (s.setfreqAccepted ws fc) = .next { s.setfreqRead ws fc y.byte with inputs := is } := by
  have hans : answerOf (.rd1 (dev8 s.cfg) s.cfg.mode1Addr) y = .okByte y.byte := by simp only [answerOf, hy]
  exact step_of_success_more (s := s.setfreqAccepted ws fc) hw (State.request_of_fRd rfl) hin hans rfl rfl nofun

/-- From F_SLEEP on the line of SETFREQ only writes and waits. -/
theorem isWriteOrDelay_of_mem_setfreqRequests {c : Cfg} {m pre : Byte} :
    ∀ r ∈ (setfreqRequests c m pre).tail, r.isWriteOrDelay = true := by
  simp [setfreqRequests, Request.isWriteOrDelay]

/-! ## Whole commands -/

/-- Settles O26: acceptance, the read, then the rest of the line, answered plainly to its end. -/
theorem setfreqRunsToOk : Obligations.SetfreqRunsToOk := by
  intro s w ws f fc y1 y2 y3 y4 y5 y6 is hready hd hf ho hin h1 h2 h3 h4 h6
  refine ⟨Config.freeDetail s.draws, s.draws + 1, ?_⟩
  rw [run_succ (step_of_setfreq hready ho hd hf), run_succ (step_of_setfreqAccepted ws fc hready.cfgWf hin h1)]
  have hplain : AnsweredPlainly (setfreqRequests s.cfg y1.byte (computePrescale s.cfg fc)).tail
      [y2, y3, y4, y5, y6] :=
    .cons (answerOf_isPlainSuccess rfl h2) (.cons (answerOf_isPlainSuccess rfl h3)
      (.cons (answerOf_isPlainSuccess rfl h4) (.cons (answerOf_delay_isPlainSuccess _ y5)
        (.cons (answerOf_isPlainSuccess rfl h6) .nil))))
  refine (run_of_answeredPlainly (ln := .setfreq) (k := 1) (is := is) hplain
    (s := { s.setfreqRead ws fc y1.byte with inputs := [y2, y3, y4, y5, y6].map Input.answer ++ is })
    hready.cfgWf rfl rfl rfl).trans ?_
  simp only [State.setfreqRead, State.setfreqAccepted, hready.idle, transactions, setfreqRequests, List.tail_cons,
    List.zipWith_cons_cons, List.zipWith_nil_left, answerOf, h2, h3, h4, h6, List.cons_append, List.nil_append]

/-- Of the requests of SETFREQ only the delay, the fifth, cannot fail. -/
theorem setfreqRequests_canFail {c : Cfg} {m pre : Byte} {k : Nat} (hk : k ∈ [0, 1, 2, 3, 5]) :
    ∃ r, (setfreqRequests c m pre)[k]? = some r ∧ r.canFail = true := by
  simp only [List.mem_cons, List.not_mem_nil, or_false] at hk
  rcases hk with rfl | rfl | rfl | rfl | rfl <;> exact ⟨_, rfl, rfl⟩

/-- Settles O27: the line is cut at the read, or after it, where the line only writes and waits. -/
theorem setfreqShortCircuits : Obligations.SetfreqShortCircuits := by
  intro s w ws f fc ys y e is hready hd hf ho hin hlen hys he
  rw [run_succ (step_of_setfreq hready ho hd hf)]
  obtain ⟨r, hr, hfail⟩ := setfreqRequests_canFail (c := s.cfg) (pre := computePrescale s.cfg fc)
    (m := ((ys ++ [y]).map Reply.byte).headD 0) hlen
  cases ys with
  | nil =>
    obtain ⟨t, hrun, hidle, -, htin, hres, htrace⟩ := run_of_firstError (s := s.setfreqAccepted ws fc)
      (ln := .setfreq) (k := 0) (ys := []) hready.cfgWf rfl rfl hr hfail nofun nofun he hin
    exact ⟨t, hrun, hidle, t.request_eq_none_iff.2 hidle, htin, hres, htrace⟩
  | cons x ys =>
    obtain ⟨hx, hys⟩ := List.forall_mem_cons.1 hys
    rw [List.length_cons, run_succ (step_of_setfreqAccepted ws fc hready.cfgWf hin hx)]
    obtain ⟨t, hrun, hidle, -, htin, hres, htrace⟩ := run_of_firstError
      (s := { s.setfreqRead ws fc x.byte with inputs := ys.map Input.answer ++ .answer y :: is })
      (ln := .setfreq) (k := 1) hready.cfgWf rfl rfl hr hfail
      (fun q hq => isWriteOrDelay_of_mem_setfreqRequests q (List.mem_of_mem_take hq)) hys he rfl
    exact ⟨t, hrun, hidle, t.request_eq_none_iff.2 hidle, htin, hres, htrace⟩

/-! ## In E_ref -/

/-- SETFREQ after its read in E_ref: the byte MODE1 held is latched, and no register has changed. -/
theorem Bench.step_of_setfreqAccepted {s : State} {e : Eref} (ws : List CmdWord) (fc : Frac) (hw : s.cfg.wf = true)
    (hf : e.fail = []) :
    Bench.step ⟨s.setfreqAccepted ws fc, e⟩ = .next
      ⟨s.setfreqRead ws fc (e.reg.read s.cfg.mode1Addr.toNat), e.after (.rd1 (dev8 s.cfg) s.cfg.mode1Addr)⟩ := by
  have hans : answerOf (.rd1 (dev8 s.cfg) s.cfg.mode1Addr) (e.reply (.rd1 (dev8 s.cfg) s.cfg.mode1Addr)) =
      .okByte (e.reg.read s.cfg.mode1Addr.toNat) := by
    simp [answerOf, Eref.reply, Eref.fails, hf, Memory.loaded]
  rw [Bench.step_of_request (b := ⟨s.setfreqAccepted ws fc, e⟩) hw (State.request_of_fRd rfl)]
  simp only [State.setfreqAccepted] at hans ⊢
  rw [hans]
  rfl

/-- The registers after the line of SETFREQ: MODE1 as it was written last, PRESCALE, and all others as before. -/
theorem Memory.read_store_setfreqRequests {mem : Memory} {c : Cfg} (h : mem.wf) (hne : c.mode1Addr ≠ c.prescaleAddr)
    (m pre : Byte) :
    ((setfreqRequests c m pre).foldl Memory.store mem).read c.mode1Addr.toNat = m ||| c.restartMask ||| c.aiMask ∧
    ((setfreqRequests c m pre).foldl Memory.store mem).read c.prescaleAddr.toNat = pre ∧
    ∀ a, a ≠ c.mode1Addr.toNat → a ≠ c.prescaleAddr.toNat →
      ((setfreqRequests c m pre).foldl Memory.store mem).read a = mem.read a := by
  have hne' : c.prescaleAddr.toNat ≠ c.mode1Addr.toNat := mt BitVec.eq_of_toNat_eq hne.symm
  simp only [setfreqRequests, List.foldl_cons, List.foldl_nil, Memory.store]
  have hsleep := Memory.wf_write (v := (m &&& ~~~ c.restartMask) ||| c.sleepMask) h c.mode1Addr.isLt
  have hpre := Memory.wf_write (v := pre) hsleep c.prescaleAddr.isLt
  have hrestored := Memory.wf_write (v := m) hpre c.mode1Addr.isLt
  refine ⟨Memory.read_write_same hrestored _ _, ?_, fun a ha hb => ?_⟩
  · rw [Memory.read_write_other _ _ hne', Memory.read_write_other _ _ hne', Memory.read_write_same hsleep]
  · rw [Memory.read_write_other _ _ ha, Memory.read_write_other _ _ ha, Memory.read_write_other _ _ hb,
      Memory.read_write_other _ _ ha]

/-- Settles O55: after the read E_ref stores the rest of the line, and MODE1 and PRESCALE are two registers. -/
theorem setfreqInEref : Obligations.SetfreqInEref := by
  intro b w ws f fc hready hmem hf hd hfc ho
  let m := b.env.reg.read b.pmc.cfg.mode1Addr.toNat
  have haccept := Bench.step_of_idle hready.idle (step_of_setfreq hready ho hd hfc)
  have hread := Bench.step_of_setfreqAccepted (e := b.env) ws fc hready.cfgWf hf
  obtain ⟨t, hrun, hidle, hok, hreg⟩ := Bench.run_line (ln := .setfreq) (k := 1)
    (b := ⟨b.pmc.setfreqRead ws fc m, b.env.after (.rd1 (dev8 b.pmc.cfg) b.pmc.cfg.mode1Addr)⟩)
    hready.cfgWf hf rfl rfl (by simp [Line.requests, setfreqRequests]) (by simp [Line.requests, setfreqRequests])
  rw [Eref.after_reg_of_noFail hf] at hreg
  refine ⟨t, ?_, hidle, hok, ?_⟩
  · rw [Bench.run_succ haccept, Bench.run_succ hread]
    exact hrun
  · rw [hreg]
    exact Memory.read_store_setfreqRequests hmem (Cfg.mode1Addr_ne hready.cfgWf).1 m _

end Sys2Proof.Machine
end

/-! # Channel commands (R170 to R182)

The two bytes of a count, the addresses and bytes a channel write sends, and the channel line: it starts in the form
CFG.BURST selects, only writes, and so runs to its end or to its first `Err(e)`. -/

section
namespace Sys2Proof.Machine

/-! ## The duty encoder -/

@[simp] theorem lowByte_toNat (n : BitVec 12) : (lowByte n).toNat = n.toNat % 256 := by
  simp [lowByte]

@[simp] theorem highByte_toNat (n : BitVec 12) : (highByte n).toNat = n.toNat / 256 := by
  have hn := n.isLt
  have hhigh : (0#4 ++ n.extractLsb' 8 4).toNat = n.toNat / 256 % 16 := by
    rw [BitVec.toNat_append, BitVec.extractLsb'_toNat, Nat.shiftRight_eq_div_pow]
    simp
  exact hhigh.trans (by omega)

/-- The upper four bits of the high byte are 0 (R173). -/
theorem highByte_and_upper (n : BitVec 12) : highByte n &&& 0xF0 = 0 := by
  change (0#4 ++ n.extractLsb' 8 4) &&& (0xF#4 ++ 0#4) = 0#4 ++ 0#4
  rw [BitVec.and_append, BitVec.zero_and, BitVec.and_zero]

/-- Settles O47: each byte as a number, and the count they give back. -/
theorem countBytesRoundTrip : Obligations.CountBytesRoundTrip :=
  fun n => ⟨lowByte_toNat n, highByte_toNat n, highByte_and_upper n, countOf_bytes n⟩

/-- Settles O48: the addresses are plain sums, and a sum tells its channel and its byte apart since `k` is below
the stride. -/
theorem channelAddressesFitAndDiffer : Obligations.ChannelAddressesFitAndDiffer := by
  intro c m n j k hw hj hk
  have hm := channelReg_toNat hw m hj
  have hn := channelReg_toNat hw n hk
  refine ⟨hm, fun heq => ?_⟩
  rw [heq, hn] at hm
  exact ⟨BitVec.eq_of_toNat_eq (by omega), by omega⟩

/-! ## Acceptance -/

/-- SETPWM of a channel up to 15 is accepted as the channel write of its clamped counts (R176). -/
theorem exec_setpwm_of_ready {s : State} {ch : BitVec 8} (on off : BitVec 16) (h : s.Ready) (hch : ch.toNat ≤ 15) :
    exec (.setpwm ch on off) s =
      .next (s.clearTrace.startChannelWrite (latchedChannel ch) (clamp12 on) (clamp12 off)) := by
  rw [exec_setpwm, accept_of_ready h.cfgWf h.idle, if_pos ((chanOK_iff ch).2 hch)]

/-- Settles O13: the start of the channel write, its latches written as numbers. -/
theorem setpwmIsAccepted : Obligations.SetpwmIsAccepted := by
  intro s ch on off hready hch
  rw [exec_setpwm_of_ready on off hready hch, latchedChannel_eq]
  rfl

/-- A channel up to 15 is latched whole (R88). -/
theorem latchedChannel_toNat {ch : BitVec 8} (h : ch.toNat ≤ 15) : (latchedChannel ch).toNat = ch.toNat := by
  rw [latchedChannel_eq, BitVec.toNat_ofNat]
  omega

/-! ## The requests of a channel write -/

section
variable (c : Cfg) (ch : BitVec 4) (on off : BitVec 12)

theorem length_channelRequests : (channelRequests c ch on off).length = if c.burst then 1 else 4 := by
  unfold channelRequests
  split <;> rfl

/-- A channel write has no probe, no read and no delay, in either form (R178, R179). -/
theorem channelRequests_write : ∀ r ∈ channelRequests c ch on off,
    r.isWriteOrDelay = true ∧ r.canFail = true := by
  unfold channelRequests
  split <;> simp [Request.isWriteOrDelay, Request.canFail]

/-- The two forms send the same bytes to the same registers: low byte first, ON before OFF (R59, R178, R179). -/
theorem writes_channelRequests : (channelRequests c ch on off).flatMap Request.writes =
    [(channelReg c ch 0, lowByte on), (channelReg c ch 1, highByte on), (channelReg c ch 2, lowByte off),
      (channelReg c ch 3, highByte off)] := by
  unfold channelRequests
  split
  · simp only [← channelReg_zero_add c ch 1, ← channelReg_zero_add c ch 2, ← channelReg_zero_add c ch 3]
    rfl
  · rfl

/-- The channel line starts in the state of the form CFG.BURST selects (R178, R179). -/
theorem channel_states_zero : (Line.channel.states c)[0]? = some (if c.burst then .pBurst else .pB0) := by
  cases hb : c.burst <;> simp [Line.states, hb]

end

/-- A request that can fail and carries no byte back is a write, which a draw without error answers with `Ok`. -/
theorem answerOf_write_of_noError {r : Request} {y : Reply} (hr : r.isWriteOrDelay = true ∧ r.canFail = true)
    (hy : y.error = none) : answerOf r y = .ok := by
  obtain ⟨hplain, hfail⟩ := hr
  cases r with
  | probe d t => cases hplain
  | rd1 d a => cases hplain
  | wr1 d a b => simp only [answerOf, hy]
  | wrn d a b0 b1 b2 b3 => simp only [answerOf, hy]
  | delay ms => cases hfail

/-- A transaction is a request with its own draw's answer. -/
theorem exists_of_mem_transactions {rs : List Request} {ys : List Reply} {x : Txn} (h : x ∈ transactions rs ys) :
    ∃ r ∈ rs, ∃ y ∈ ys, x = ⟨r, answerOf r y⟩ := by
  rw [transactions, ← List.map_uncurry_zip_eq_zipWith] at h
  obtain ⟨⟨r, y⟩, hmem, rfl⟩ := List.mem_map.1 h
  exact ⟨r, (List.of_mem_zip hmem).1, y, (List.of_mem_zip hmem).2, rfl⟩

/-! ## Whole commands -/

/-- The step that takes a held channel command (R44, R176, R196). -/
theorem step_of_channelCommand {s : State} {w : CmdWord} {ws : List CmdWord} {ch : BitVec 8} {on off : Nat}
    (h : s.Ready) (ho : s.offers = w :: ws) (hc : channelCounts s.cfg (decode w) = some (ch, on, off))
    (hch : ch.toNat ≤ 15) :
    ∃ n m : BitVec 12, n.toNat = on ∧ m.toNat = off ∧
      step s = .next (State.startChannelWrite { s with offers := ws, trace := [] } (latchedChannel ch) n m) := by
  obtain ⟨n, m, hn, hm, he⟩ := exec_of_channelCounts (s := { s with offers := ws }) ⟨h.cfgWf, h.idle⟩ hc hch
  exact ⟨n, m, hn, hm, (step_of_offer h.idle ho).trans he⟩

/-- A channel write whose draws hold no error issues all its requests, each answered with `Ok`, and completes with OK
(R178 to R180). -/
theorem run_of_channelWrite {s : State} {ch : BitVec 4} {on off : BitVec 12} {ys : List Reply} {is : List Input}
    (hw : s.cfg.wf = true) (htrace : s.trace = []) (hin : s.inputs = ys.map Input.answer ++ is)
    (hlen : ys.length = if s.cfg.burst then 1 else 4) (hys : ∀ y ∈ ys, y.error = none) :
    ∃ t, run ys.length (s.startChannelWrite ch on off) = .next t ∧ t.st = .idle ∧ t.res.status = .ok ∧
      t.cfg = s.cfg ∧ t.offers = s.offers ∧ t.inputs = is ∧ (∀ x ∈ t.trace, x.answer = .ok) ∧
      t.trace.map Txn.request = channelRequests s.cfg ch on off := by
  have hwrite := channelRequests_write s.cfg ch on off
  have hplain : AnsweredPlainly (channelRequests s.cfg ch on off) ys :=
    answeredPlainly_of_noError ((length_channelRequests ..).trans hlen.symm) (fun r hr => (hwrite r hr).1) hys
  have hrun := run_of_answeredPlainly (s := s.startChannelWrite ch on off) (ln := .channel) (k := 0) hplain hw
    (channel_states_zero s.cfg) rfl hin
  rw [State.startChannelWrite_trace, htrace, List.nil_append] at hrun
  refine ⟨_, hrun, rfl, rfl, rfl, rfl, rfl, fun x hx => ?_, hplain.map_request⟩
  obtain ⟨r, hr, y, hy, rfl⟩ := exists_of_mem_transactions hx
  exact answerOf_write_of_noError (hwrite r hr) (hys y hy)

/-- Settles O28: acceptance, then the channel line to its end; its requests send the bytes of the counts. -/
theorem channelCommandsRunToOk : Obligations.ChannelCommandsRunToOk := by
  intro s w ws ch on off ys is hready hc hch ho hin hlen hys
  obtain ⟨n, m, rfl, rfl, hstep⟩ := step_of_channelCommand hready ho hc hch
  obtain ⟨t, hrun, hidle, hok, hcfg, hoffers, hinputs, hans, htrace⟩ := run_of_channelWrite
    (s := { s with offers := ws, trace := [] }) (ch := latchedChannel ch) (on := n) (off := m)
    hready.cfgWf rfl hin hlen hys
  have hreg := @channelReg_toNat s.cfg (Cfg.wf2_of_wf hready.cfgWf) (latchedChannel ch)
  refine ⟨t, (run_succ hstep).trans hrun, hidle, hok, hcfg, hoffers, hinputs, hans, ?_, ?_⟩
  · rw [← List.length_map Txn.request, htrace, length_channelRequests]
  · rw [← List.flatMap_map, htrace, writes_channelRequests]
    simp [hreg, latchedChannel_toNat hch]

/-- Settles O29: the channel line in its single-write form, cut at its first `Err(e)`. -/
theorem channelWriteShortCircuits : Obligations.ChannelWriteShortCircuits := by
  intro s ys y e is hw hburst hst htrace hin hlen hys he
  have hwrite := channelRequests_write s.cfg s.lat.ch s.lat.on s.lat.off
  have hpos : (Line.channel.states s.cfg)[0]? = some s.st := by
    rw [channel_states_zero, hburst, hst]
    rfl
  have hlt : ys.length < (channelRequests s.cfg s.lat.ch s.lat.on s.lat.off).length := by
    rw [length_channelRequests, hburst]
    exact hlen
  obtain ⟨t, hrun, hidle, hlat, -, hres, hreqs⟩ := run_of_firstError hw hpos rfl (List.getElem?_eq_getElem hlt)
    (hwrite _ (List.getElem_mem hlt)).2 (fun q hq => (hwrite q (List.mem_of_mem_take hq)).1) hys he hin
  rw [htrace] at hreqs
  exact ⟨t, hrun, hidle, t.request_eq_none_iff.2 hidle, hlat, hres, hreqs⟩

end Sys2Proof.Machine
end

/-! # SETTHR (R190 to R202)

The pulse width as a number: the offset from neutral is a quotient truncated toward zero, and the clamp to the pulse
bounds fits 12 bits. Then the command, which is SETPWM of that width at ON tick 0. -/

section
namespace Sys2Proof.Machine

/-! ## The offset from neutral -/

/-- Integer division truncated toward zero is `trunc0` of the rational quotient (R12, R192). -/
theorem trunc0_div (n : ℤ) {d : ℕ} (hd : 0 < d) : trunc0 ((n : ℚ) / d) = n.tdiv d := by
  have hfloor {k : ℤ} (hk : 0 ≤ k) : ⌊(k : ℚ) / d⌋ = k.tdiv d := by
    rw [Rat.floor_intCast_div_natCast, Int.tdiv_eq_ediv_of_nonneg hk]
  rcases le_or_gt 0 n with hn | hn
  · rw [trunc0, if_pos (by positivity), hfloor hn]
  · have hneg : (n : ℚ) / d < 0 := div_neg_of_neg_of_pos (Int.cast_lt_zero.2 hn) (Nat.cast_pos.2 hd)
    rw [trunc0, if_neg hneg.not_ge, ← neg_div, ← Int.cast_neg, hfloor (by omega), Int.neg_tdiv, neg_neg]

/-- The offset of R192 over the rationals. -/
theorem pulseOffset_eq_trunc0 (c : Cfg) (p : Int) : pulseOffset c p =
    trunc0 (((clampThr p * ((c.pulseMax.toNat : ℤ) - c.pulseMin.toNat) : ℤ) : ℚ) / 200) :=
  (trunc0_div _ (by decide : 0 < 200)).symm

/-- The offset is odd-symmetric about neutral (R192). -/
theorem pulseOffset_neg (c : Cfg) (p : Int) : pulseOffset c (-p) = -pulseOffset c p := by
  have hclamp : clampThr (-p) = -clampThr p := by
    simp only [clampThr, clampInt, thrMin, thrMax]
    omega
  rw [pulseOffset, hclamp, Int.neg_mul, Int.neg_tdiv, pulseOffset]

theorem pulseOffset_zero (c : Cfg) : pulseOffset c 0 = 0 := by
  have hclamp : clampThr 0 = 0 := rfl
  rw [pulseOffset, hclamp, Int.zero_mul, Int.zero_tdiv]

section
variable {c : Cfg} (h : c.wf5 = true)
include h

/-- WF5 as inequalities (R28). -/
theorem Cfg.pulses_ordered :
    c.pulseMin.toNat ≤ c.pulseNeutral.toNat ∧ c.pulseNeutral.toNat ≤ c.pulseMax.toNat := by
  simpa [Cfg.wf5] using h

/-- Full throttle is half the span from neutral, rounded down (R199). -/
theorem pulseOffset_hundred : pulseOffset c 100 = ((c.pulseMax.toNat - c.pulseMin.toNat) / 2 : ℕ) := by
  obtain ⟨hlow, hhigh⟩ := Cfg.pulses_ordered h
  have hclamp : clampThr 100 = 100 := rfl
  rw [pulseOffset, hclamp, Int.tdiv_eq_ediv_of_nonneg (by omega), thrDiv]
  omega

theorem pulseOffset_mono {p q : Int} (hpq : p ≤ q) : pulseOffset c p ≤ pulseOffset c q := by
  obtain ⟨hlow, hhigh⟩ := Cfg.pulses_ordered h
  exact Int.tdiv_le_tdiv (by decide) (mul_le_mul_of_nonneg_right (clampInt_mono _ _ hpq) (by omega))

end

/-! ## The pulse width -/

/-- Twelve bits hold the clamped value (R193). -/
theorem thrPulse_toNat (c : Cfg) (p : Int) : ((thrPulse c p).toNat : ℤ) =
    clampInt (c.pulseNeutral.toNat + pulseOffset c p) c.pulseMin.toNat c.pulseMax.toNat := by
  have hmin := c.pulseMin.isLt
  have hmax := c.pulseMax.isLt
  simp only [thrPulse, clampInt, BitVec.toNat_ofInt]
  omega

/-- Settles O49: the offset is the rational one, and the clamp to ordered bounds stays within them. -/
theorem pulseIsTheRationalFormula : Obligations.PulseIsTheRationalFormula := by
  intro c p h
  obtain ⟨hlow, hhigh⟩ := Cfg.pulses_ordered h
  have hbounds := clampInt_bounds (c.pulseNeutral.toNat + pulseOffset c p) (Int.ofNat_le.2 (hlow.trans hhigh))
  rw [← thrPulse_toNat, Int.ofNat_le, Int.ofNat_le] at hbounds
  refine ⟨?_, hbounds⟩
  rw [thrPulse_toNat, pulseOffset_eq_trunc0]
  rfl

/-- Settles O51: the offset rises with the throttle, and the clamp keeps the order. -/
theorem pulseIsNonDecreasing : Obligations.PulseIsNonDecreasing := by
  intro c p q h hpq
  rw [← Int.ofNat_le, thrPulse_toNat, thrPulse_toNat]
  exact clampInt_mono _ _ (Int.add_le_add_left (pulseOffset_mono h hpq) _)

theorem thrPulse_eq_iff (c : Cfg) (p : Int) (n : BitVec 12) : thrPulse c p = n ↔
    clampInt (c.pulseNeutral.toNat + pulseOffset c p) c.pulseMin.toNat c.pulseMax.toNat = n.toNat := by
  rw [← thrPulse_toNat, Int.ofNat_inj, BitVec.toNat_inj]

section
variable {c : Cfg} (h : c.wf5 = true)
include h

theorem thrPulse_zero : thrPulse c 0 = c.pulseNeutral := by
  obtain ⟨hlow, hhigh⟩ := Cfg.pulses_ordered h
  rw [thrPulse_eq_iff, pulseOffset_zero, clampInt]
  omega

/-- The maximum is reached exactly when half the span from neutral reaches it (R199). -/
theorem thrPulse_hundred_eq_max_iff : thrPulse c 100 = c.pulseMax ↔
    c.pulseMax.toNat ≤ c.pulseNeutral.toNat + (c.pulseMax.toNat - c.pulseMin.toNat) / 2 := by
  obtain ⟨hlow, hhigh⟩ := Cfg.pulses_ordered h
  rw [thrPulse_eq_iff, pulseOffset_hundred h, clampInt]
  omega

/-- The minimum is reached exactly when half the span from neutral reaches it (R199). -/
theorem thrPulse_negHundred_eq_min_iff : thrPulse c (-100) = c.pulseMin ↔
    (c.pulseNeutral.toNat : ℤ) - ((c.pulseMax.toNat - c.pulseMin.toNat) / 2 : ℕ) ≤ c.pulseMin.toNat := by
  obtain ⟨hlow, hhigh⟩ := Cfg.pulses_ordered h
  rw [thrPulse_eq_iff, pulseOffset_neg, pulseOffset_hundred h, clampInt]
  omega

/-- WF6 says that neutral is within half the span, rounded down, of both bounds (R199). -/
theorem Cfg.wf6_iff : c.wf6 = true ↔
    (c.pulseNeutral.toNat : ℤ) - ((c.pulseMax.toNat - c.pulseMin.toNat) / 2 : ℕ) ≤ c.pulseMin.toNat ∧
      c.pulseMax.toNat ≤ c.pulseNeutral.toNat + (c.pulseMax.toNat - c.pulseMin.toNat) / 2 := by
  obtain ⟨hlow, hhigh⟩ := Cfg.pulses_ordered h
  rw [Cfg.wf6, Bool.and_eq_true, decide_eq_true_iff, decide_eq_true_iff]
  omega

end

/-- Settles O50: each end point by its own condition, and WF6 is the two conditions together. -/
theorem throttleEndPoints : Obligations.ThrottleEndPoints := by
  intro c h
  have hmax := thrPulse_hundred_eq_max_iff h
  have hmin := thrPulse_negHundred_eq_min_iff h
  exact ⟨thrPulse_zero h, hmax, hmin, (and_congr hmin hmax).trans (Cfg.wf6_iff h).symm⟩

/-! ## The command -/

/-- What accepting a command does depends only on its run from the state with the trace cleared. -/
theorem accept_congr {s : State} {f g : State → State} (h : f s.clearTrace = g s.clearTrace) :
    accept s f = accept s g := by
  simp only [accept, h]

/-- The 12-bit clamp changes nothing of a value that has 12 bits (R171, R193). -/
theorem clamp12_setWidth (n : BitVec 12) : clamp12 (n.setWidth 16) = n := by
  have hn := n.isLt
  refine BitVec.eq_of_toNat_eq ?_
  rw [clamp12_toNat, BitVec.toNat_setWidth_of_le (by decide)]
  omega

/-- Settles O17: both commands check the channel alike, and the clamps of SETPWM leave ON tick 0 and the pulse as
they are. -/
theorem setthrIsSetpwmOfThePulse : Obligations.SetthrIsSetpwmOfThePulse := by
  intro s ch pct
  rw [exec_setthr, exec_setpwm]
  refine accept_congr ?_
  rw [clamp12_setWidth, State.clearTrace_cfg]
  rfl

/-- Settles O14: the channel write that SETPWM of the pulse starts. -/
theorem setthrIsAccepted : Obligations.SetthrIsAccepted := by
  intro s ch pct hready hch
  rw [setthrIsSetpwmOfThePulse, exec_setpwm_of_ready _ _ hready hch, latchedChannel_eq, clamp12_setWidth]
  rfl

end Sys2Proof.Machine
end

/-! # Failures (R206, R207, R212)

A failed answer ends the command in its own step (`step_of_error`, `step_of_absent`); in IDLE nothing is issued. -/

section
namespace Sys2Proof.Machine

/-- Settles O21: the step of an `Err(e)` completes with BUS_ERROR(e), and in IDLE no request is outstanding. -/
theorem busErrorEndsTheCommand : Obligations.BusErrorEndsTheCommand := by
  intro s r y e is hbusy hreq hin herr
  exact ⟨step_of_error hbusy.cfgWf hreq hin herr, (State.request_eq_none_iff _).2 rfl⟩

/-- Settles O22: the step of a probe answered `false` completes with DEVICE_NOT_READY and a free detail. -/
theorem absentDeviceEndsInit : Obligations.AbsentDeviceEndsInit := by
  intro s y is hwf hprobe hin habsent
  exact ⟨Config.freeDetail s.draws, s.draws + 1, step_of_absent hwf hprobe hin habsent⟩

end Sys2Proof.Machine
end

/-! # Block reset, late answers and the durations of a command (R240, R241, R263, R264)

A running command completes with OK only in the step that answers the last request of its line successfully, so the
trace it leaves is the whole line, and its delays are the line's. -/

section
namespace Sys2Proof.Machine

/-! ## Block reset and late answers -/

/-- Settles O40: the step takes the block reset, which goes to IDLE, where no request is outstanding. -/
theorem blockResetAbandonsTheCommand : Obligations.BlockResetAbandonsTheCommand := by
  intro s is hc hin
  exact ⟨s.blockReset.lat, s.blockReset.res, s.blockReset.draws, step_of_input hc hin,
    (State.request_eq_none_iff _).2 rfl⟩

/-- Settles O41: the step takes the late answer, which touches nothing but the events to come. -/
theorem lateAnswersAreIgnored : Obligations.LateAnswersAreIgnored :=
  fun _ _ _ hc hin => step_of_input hc hin

/-! ## The delays of a line -/

/-- The milliseconds that the delays of a line add up to (R111, R114, R151, R178, R179). -/
def Line.delayMs (ln : Line) (c : Cfg) : Nat :=
  match ln with
  | .reset => c.resetDelayMs.toNat
  | .init => c.resetDelayMs.toNat
  | .setfreq => c.oscSettleMs.toNat
  | .channel => 0

/-- The 16-bit milliseconds of CFG stand unchanged in the 32-bit argument of a delay (R54, R100). -/
theorem setWidth_ms_toNat (ms : BitVec 16) : (ms.setWidth 32).toNat = ms.toNat :=
  BitVec.toNat_setWidth_of_le (by decide)

/-- The delays of a line are its only requests that wait (R54, R263). -/
theorem Line.sum_waitMs_requests (ln : Line) (c : Cfg) (l : Latches) :
    ((ln.requests c l).map Request.waitMs).sum = ln.delayMs c := by
  cases ln with
  | reset => simp [Line.requests, resetRequests, Line.delayMs, Request.waitMs, setWidth_ms_toNat,
      -BitVec.toNat_setWidth]
  | init => simp [Line.requests, initRequests, resetRequests, Line.delayMs, Request.waitMs, setWidth_ms_toNat,
      -BitVec.toNat_setWidth]
  | setfreq => simp [Line.requests, setfreqRequests, Line.delayMs, Request.waitMs, setWidth_ms_toNat,
      -BitVec.toNat_setWidth]
  | channel => cases h : c.burst <;> simp [Line.requests, channelRequests, h, Line.delayMs, Request.waitMs]

/-- The least time of a trace depends on its requests alone, so a whole line takes at least its delays (R264). -/
theorem minDurationMs_of_whole_line {trace : List Txn} {ln : Line} {c : Cfg} {l : Latches}
    (h : trace.map Txn.request = ln.requests c l) : minDurationMs trace = ln.delayMs c := by
  rw [← ln.sum_waitMs_requests c l, ← h, List.map_map]
  rfl

/-- The delays are long enough for the chip (R30). -/
theorem Cfg.delays_of_wf {c : Cfg} (h : c.wf = true) : 10 ≤ c.resetDelayMs.toNat ∧ 5 ≤ c.oscSettleMs.toNat := by
  simp only [Cfg.wf, Bool.and_eq_true] at h
  obtain ⟨⟨-, h7⟩, -⟩ := h
  simpa [Cfg.wf7] using h7

/-! ## Completion with OK -/

/-- An answer at the last place of a line has answered the whole line. -/
theorem State.Answered.whole_line {s : State} {ln : Line} {earlier : List Txn} {last : Txn}
    (h : s.Answered ln earlier last) (hlast : nextOnSuccess s.st = .idle) :
    s.trace.map Txn.request = ln.requests s.cfg s.lat := by
  have hlen : s.trace.length = (ln.requests s.cfg s.lat).length := by
    rw [ln.length_requests s, Line.length_states_of_last h.position hlast, h.parts, List.length_append,
      List.length_singleton]
  rw [h.inOrder, hlen, List.take_length]

/-- An answer that completes a running command with OK is a success at the last place of its line. -/
theorem State.Running.whole_line_of_receive {s : State} {ln : Line} {r : Request} {y : Reply} (h : s.Running ln)
    (hr : s.request = some r) {t : State} (ht : t = (s.record r (answerOf r y)).receive (answerOf r y))
    (hidle : t.st = .idle) (hok : t.res.status = .ok) : t.trace.map Txn.request = ln.requests s.cfg t.lat := by
  subst ht
  rcases (s.record r (answerOf r y)).receive_cases (answerOf r y) with
    ⟨e, -, he⟩ | ⟨-, he⟩ | ⟨-, hlast, he⟩ | ⟨-, hmore, he⟩ <;> rw [he] at hidle hok ⊢
  · cases hok
  · cases hok
  · simpa using (h.answered hr y).whole_line (by simpa using hlast)
  · exact absurd hidle hmore

/-- The step that completes a running command with OK is that of an answer, and leaves its whole line (R41, R263). -/
theorem State.Running.whole_line_of_step {s t : State} {ln : Line} (h : s.Running ln) (hb : s.st ≠ .idle)
    (hstep : step s = .next t) (hidle : t.st = .idle) (hreset : ∀ is, s.inputs ≠ .blockReset :: is)
    (hok : t.res.status = .ok) : t.trace.map Txn.request = ln.requests s.cfg t.lat := by
  rcases step_next hstep with ⟨w, ws, hi, -, -⟩ | ⟨w, is, -, rfl⟩ | ⟨y, is, -, -, hres⟩ | ⟨y, is, -, rfl⟩ |
    ⟨is, hin, -⟩ | ⟨-, rfl⟩
  · exact absurd hi hb
  · exact absurd hidle hb
  · obtain ⟨-, r, hr, ht⟩ := respond_next hres
    have hrun : State.Running { s with inputs := is } ln := ⟨h.position, h.inOrder, h.succeeded, h.snapshot⟩
    exact hrun.whole_line_of_receive hr ht hidle hok
  · exact absurd hidle hb
  · exact absurd hin (hreset is)
  · exact absurd hidle hb

/-- Settles O31: the trace left is the whole line of the running command, with the line's length and delays. -/
theorem transactionCountsAndDurations : Obligations.TransactionCountsAndDurations := by
  intro s t hinv hb hstep hidle hreset hok
  obtain ⟨ln, hrun⟩ := hinv.running hb
  have hline := hrun.whole_line_of_step hb hstep hidle hreset hok
  have hcount : t.trace.length = (ln.requests s.cfg t.lat).length := by rw [← hline, List.length_map]
  have htime := minDurationMs_of_whole_line hline
  obtain ⟨hresetMs, hsettleMs⟩ := Cfg.delays_of_wf hinv.cfgWf
  refine ⟨ln, hrun, hline, ?_⟩
  cases ln with
  | reset => exact ⟨hcount, htime, htime ▸ hresetMs⟩
  | init => exact ⟨hcount, htime, htime ▸ hresetMs⟩
  | setfreq => exact ⟨hcount, htime, htime ▸ hsettleMs⟩
  | channel => exact ⟨hcount.trans (length_channelRequests _ _ _ _), htime⟩

end Sys2Proof.Machine
end
